-- ==== Sys2Proof/Word.lean ====
section
/-! DEFINITION. The bit-vector types of the block's values (spec/00_scope.md R8, spec/30_encoding.md R69 and R71). -/

namespace Sys2Proof

/-- A payload byte, a character code, a symbol or digit operand, a command code or a byte of the store: 8 bits. -/
abbrev Byte := BitVec 8

/-- A drive value: a 12-bit PWM duty value, unsigned (R8). -/
abbrev Drive := BitVec 12

/-- A calibration value: a 6-bit correction factor, unsigned (R8). -/
abbrev CalVal := BitVec 6

/-- A glyph mask: bit `i` set means segment `i` is lit (R68). -/
abbrev Mask := BitVec 7

/-- The 16-bit host operand `VAL` (R69). -/
abbrev Operand := BitVec 16

/-- A host request word (R69). -/
abbrev ReqWord := BitVec 40

end Sys2Proof
end

