-- ==== Sys2Proof/Config.lean ====
section
/-! DEFINITION. The product's parameters (spec/00_scope.md R5 to R10), the well-formedness a configuration must meet, and
the free values of the model. Every parameter the source leaves OPEN stays open: a claim quantifies over it. -/

namespace Sys2Proof

/-- What a PWM unit is set to: a duty-cycle register and a clock frequency or mode (R31, R162). DESIGN CHOICE (entry 22):
the mode is an uninterpreted number. -/
structure PwmSetup where
  duty : Rat := 0
  clockMode : Nat := 0
  deriving DecidableEq, Repr, Inhabited

/-- The parameters of a product variant (R5 to R7, R9, R10). The tables are lists: a channel or segment slot beyond the
list is unconnected and a character that is not listed has the empty mask (R84d), entry 24. The defaults only make the
type inhabited; no claim sees them. -/
structure Params where
  /-- `SYMBOL_COUNT` (R6). -/
  symbolCount : Nat := 1
  /-- `DIGIT_COUNT` (R7). -/
  digitCount : Nat := 0
  /-- `CHANNEL_COUNT` (R5). -/
  channelCount : Nat := 96
  /-- `CHANMAP`: entry `c` is the symbol of physical channel `c` (R9). -/
  chanMap : List (Option Nat) := []
  /-- `SEGMAP`: row `d`, entry `i` is the symbol of segment slot `i` of digit `d` (R9). -/
  segMap : List (List (Option Nat)) := []
  /-- `GLYPH`: the defined characters and their masks (R9, R84). -/
  glyph : List (Byte × Mask) := [(0x38, 0x7F)]
  /-- The six command codes (R10, R63). -/
  cmdUpdatePwm : Byte := 0
  cmdEnablePwm : Byte := 1
  cmdDisablePwm : Byte := 2
  cmdToggleCorrection : Byte := 3
  cmdUpdateCorrection : Byte := 4
  cmdTogglePhaseShift : Byte := 5
  /-- `CAL_ADDR` (R10). -/
  calAddr : Nat := 0
  /-- `RESET_HOLD_MS`, in milliseconds (R10). -/
  resetHoldMs : Nat := 1
  /-- `T_LATCH_MIN`, in milliseconds (R10), entry 23. -/
  tLatchMin : Rat := 0
  /-- `MAX_VOLTAGE`, in the unit of `volts` (R10, D19). -/
  maxVoltage : Nat := 0
  /-- `VOLT_SCALE` (R10), entry 23. -/
  voltScale : Rat := 0
  /-- `PWM_DEFAULTS.anode` (R10). -/
  pwmAnode : PwmSetup := default
  /-- `PWM_DEFAULTS.chipclk` (R10). -/
  pwmChipClk : PwmSetup := default
  deriving DecidableEq, Repr, Inhabited

/-- The six command codes in the order of R10. -/
def Params.codes (p : Params) : List Byte :=
  [p.cmdUpdatePwm, p.cmdEnablePwm, p.cmdDisablePwm, p.cmdToggleCorrection, p.cmdUpdateCorrection, p.cmdTogglePhaseShift]

/-- The mask the table gives a character, empty where it lists none (R82, R84d). -/
def Params.maskOf (p : Params) (ch : Byte) : Mask := (p.glyph.lookup ch).getD 0

/-- `1 <= SYMBOL_COUNT <= 256` (R6, D24). -/
def Params.symbolCountOk (p : Params) : Bool := decide (1 ≤ p.symbolCount) && decide (p.symbolCount ≤ 256)

/-- `0 <= DIGIT_COUNT <= 256` (R7, D24). -/
def Params.digitCountOk (p : Params) : Bool := decide (p.digitCount ≤ 256)

/-- `CHANNEL_COUNT` is even and at least 2 (R5, D6). -/
def Params.channelCountOk (p : Params) : Bool := decide (2 ≤ p.channelCount) && decide (p.channelCount % 2 = 0)

/-- Every symbol in `CHANMAP` exists (R9, D24). -/
def Params.chanMapOk (p : Params) : Bool := p.chanMap.all fun o => o.all fun i => decide (i < p.symbolCount)

/-- Every symbol in `SEGMAP` exists (R9, D24). -/
def Params.segMapOk (p : Params) : Bool :=
  p.segMap.all fun row => row.all fun o => o.all fun i => decide (i < p.symbolCount)

/-- What the source fixes of `GLYPH` (R84): `'8'` lights all, space and the control characters light none. PRESUMED
(entry 28): the characters are ASCII codes, as R84 and G1 take them. -/
def Params.glyphOk (p : Params) : Bool :=
  decide (p.maskOf 0x38 = 0x7F) && decide (p.maskOf 0x20 = 0) && decide (p.maskOf 0x7F = 0) &&
    (List.range 32).all fun n => decide (p.maskOf (BitVec.ofNat 8 n) = 0)

/-- The six command codes are pairwise distinct (R10, D7). -/
def Params.codesOk (p : Params) : Bool := decide p.codes.Nodup

/-- The reset hold exceeds the chips' minimum latch width (R131, R172d, D18). -/
def Params.holdOk (p : Params) : Bool := decide (p.tLatchMin < (p.resetHoldMs : Rat))

/-- The well-formedness a configuration must meet (R9, R10, R172d). -/
def Params.wellFormed (p : Params) : Bool :=
  p.symbolCountOk && p.digitCountOk && p.channelCountOk && p.chanMapOk && p.segMapOk && p.glyphOk && p.codesOk && p.holdOk

/-- A configuration: parameters together with the proof that they are well formed, so that a malformed table is refused at
configuration time and cannot reach the machine (U14, D24), entry 25. -/
structure Config extends Params where
  wf : toParams.wellFormed = true := by decide +kernel
  deriving DecidableEq, Repr, Inhabited

/-- `BANK`, the number of channels per chip (R5). -/
def Config.bank (c : Config) : Nat := c.channelCount / 2

/-- The bits one chip holds: its channels' values and its command (R66). -/
def Config.chipBits (c : Config) : Nat := 12 * c.bank + 8

/-- `FRAME_BITS` (R60). -/
def Config.frameLength (c : Config) : Nat := 12 * c.channelCount + 16

/-- The product's OPEN parameters: no value is chosen and nothing can be proved of them but that they are well formed. -/
opaque Config.shipped : Config

theorem Params.wellFormed_channelCount (p : Params) (h : p.wellFormed = true) :
    ({ p with channelCount := 96 } : Params).wellFormed = true := by
  simp only [Params.wellFormed, Bool.and_eq_true] at h ⊢
  obtain ⟨⟨⟨⟨⟨⟨⟨h1, h2⟩, -⟩, h4⟩, h5⟩, h6⟩, h7⟩, h8⟩ := h
  exact ⟨⟨⟨⟨⟨⟨⟨h1, h2⟩, by simp [Params.channelCountOk]⟩, h4⟩, h5⟩, h6⟩, h7⟩, h8⟩

/-- The configuration of the hardware: every OPEN parameter unconstrained, `CHANNEL_COUNT = 96` (R5), entry 1. -/
def Config.hardware : Config :=
  { toParams := { Config.shipped.toParams with channelCount := 96 }
    wf := Params.wellFormed_channelCount _ Config.shipped.wf }

/-- Free value: whether something the source leaves undecided happens, at draw `n` (U3, U8, U11), entries 7, 18, 19. -/
opaque Config.freeBool : Nat → Bool

/-- Free value: a 6-bit calibration register after a load the source does not define (U5, U7), entry 8. -/
opaque Config.freeCal : Nat → CalVal

/-- Free value: a byte of the store after a failed write (U6), entry 9. -/
opaque Config.freeByte : Nat → Byte

end Sys2Proof
end

