-- ==== Sys2Proof/Syntax.lean ====
section
/-! DEFINITION. The block's two instruction sets (spec/00_scope.md R15 glossary, spec/30_encoding.md R63, R70, R75): the
host operations and the wire commands, one constructor per row of spec/opcode_table.json, and the two forms in which an
instruction is presented. -/

namespace Sys2Proof

/-- The six wire commands (R63). -/
inductive WireCommand where
  | updatePwm
  | enablePwm
  | disablePwm
  | toggleCorrection
  | updateCorrection
  | togglePhaseShift
  deriving DecidableEq, Repr, Inhabited

/-- The instructions: eight host operations, six wire commands and the reserved selectors. -/
inductive Instr where
  /-- `initialize()`, `OP = 0` (R130). -/
  | hostInit
  /-- `setAnodeVoltage(volts)`, `OP = 1` (R133). -/
  | setAnodeVoltage (volts : Operand)
  /-- `setAll(value)`, `OP = 2` (R90). -/
  | setAll (value : Operand)
  /-- `setSymbol(symbol, value)`, `OP = 3` (R91). -/
  | setSymbol (symbol : Byte) (value : Operand)
  /-- `renderDigit(char, digit, value)`, `OP = 4` (R92). -/
  | renderDigit (char digit : Byte) (value : Operand)
  /-- `commitFrame()`, `OP = 5` (R134). -/
  | commitFrame
  /-- `setCalibration(values, persist)`, `OP = 6` (R101). -/
  | setCalibration (persist : Bool) (values : List Byte)
  /-- `setCalibrationEnabled(enable)`, `OP = 7` (R104). -/
  | setCalibrationEnabled (enable : Bool)
  /-- Wire command update-PWM (R119). -/
  | updatePwm
  /-- Wire command toggle-correction (R120). -/
  | toggleCorrection
  /-- Wire command update-correction (R121). -/
  | updateCorrection
  /-- Wire command enable-PWM (R122). -/
  | enablePwm
  /-- Wire command disable-PWM (R123). -/
  | disablePwm
  /-- Wire command toggle-phase-shift (R124). -/
  | togglePhaseShift
  /-- A reserved selector, `OP = 8 + sel` (R73). -/
  | reserved (sel : BitVec 3)
  deriving DecidableEq, Repr, Inhabited

/-- One item presented to the block: a host request, that is a word and its payload (R69), or a bare command code handed
to the serializer (DESIGN CHOICE, entry 11). -/
inductive Request where
  | host (word : ReqWord) (payload : List Byte)
  | wire (code : Byte)
  deriving DecidableEq, Repr, Inhabited

/-- Why an item is no instruction. -/
inductive DecodeError where
  /-- A payload after a word whose operation takes none (R70), entry 14. -/
  | unexpectedPayload
  /-- An 8-bit value outside the six command codes (R63, R73c). -/
  | unknownWireCode
  deriving DecidableEq, Repr

end Sys2Proof
end

