-- ==== Sys2Proof/Machine/State.lean ====
section
/-! DEFINITION. The state of the block and of what stands at its boundary (spec/10_state.md), as plain data, and its
power-on value (R36). -/

namespace Sys2Proof.Machine

/-- The three lines of the bus (R24). -/
inductive Line where
  | data
  | clk
  | latch
  deriving DecidableEq, Repr, Inhabited

/-- The two PWM units (R31). -/
inductive PwmUnit where
  | anode
  | chipClk
  deriving DecidableEq, Repr, Inhabited

/-- What a PWM unit is programmed with: the whole set-up (R130) or its duty register alone (R133). -/
inductive PwmProgram where
  | setup (p : PwmSetup)
  | duty (d : Rat)
  deriving DecidableEq, Repr, Inhabited

/-- An output event (R15, R28). -/
inductive Event where
  /-- `L(line, level)`. -/
  | level (l : Line) (v : Bool)
  /-- `Delay(ms)`. -/
  | delay (ms : Nat)
  /-- `NvRead(addr, n)`. -/
  | nvRead (addr n : Nat)
  /-- `NvWrite(addr, bytes)`. -/
  | nvWrite (addr : Nat) (bytes : List Byte)
  /-- `Pwm(unit, what)`. -/
  | pwm (unit : PwmUnit) (what : PwmProgram)
  deriving DecidableEq, Repr, Inhabited

/-- The reset/init state (R23, R132). -/
inductive InitState where
  | unreset
  | latched
  | correctionDisabled
  | phaseShiftEnabled
  | pwmEnabled
  deriving DecidableEq, Repr, Inhabited

/-- The error kinds (R150) and the spec's own `IllegalRequest` (R72, R73). -/
inductive ErrorKind where
  | outOfRange
  | invalidIndex
  | unsupportedProduct
  | persistenceFailure
  | illegalRequest
  deriving DecidableEq, Repr, Inhabited

/-- The result of an operation (R72). -/
inductive Result where
  | ok
  | err (kind : ErrorKind)
  deriving DecidableEq, Repr, Inhabited

/-- One driver chip, as far as R30 describes it. -/
structure Chip where
  /-- Its part of the shift chain, the earliest bit first (R30a, R66). -/
  shift : List Bool
  /-- Its output register: the bits the last latch pulse transferred (R30b). -/
  outReg : List Bool
  /-- The active PWM duty of its channels, by channel within the bank (R119). -/
  duty : List Drive
  /-- The values its correction engine holds, by channel within the bank (R30h, R121). -/
  corr : List Drive
  /-- Correction on or off (R30d, R30e). -/
  correction : Bool
  /-- Phase-shifted PWM on or off (R30f). -/
  phaseShift : Bool
  /-- PWM outputs enabled (R30g). -/
  pwm : Bool
  deriving DecidableEq, Repr, Inhabited

/-- The two chips of the chain; chip 2 is the far one (R30a, R42). -/
structure Chips where
  chip1 : Chip
  chip2 : Chip
  /-- Whether the chips are still in the state power-up gave them (R172c, R176). -/
  fresh : Bool
  deriving DecidableEq, Repr, Inhabited

/-- The block faults on nothing: it has no trap (R159) and hardware faults are invisible to it (R160). -/
inductive Fault where
  deriving DecidableEq, Repr

/-- Why a step gives no next state. Every one is safe: the model says nothing where the spec gives no meaning. -/
inductive Refusal where
  /-- An arm of `exec` whose instruction has no meaning yet; raised by `exec` only; safe. -/
  | notModelled (mnemonic : String)
  /-- Anything but `initialize` before `initialize` has returned (R136, R170, R173, U9); raised through `State.guarded` by
  the seven operations that R136 names and by the five bare wire commands that are sent (entry 11); safe. -/
  | notInitialized
  /-- A calibration array that is not `SYMBOL_COUNT` entries long, which R71 says cannot be expressed; raised by
  `execSetCalibration`; safe. -/
  | payloadLength
  /-- disable-PWM, which no rule sends and whose effect the source does not give (R123); raised by `execDisablePwm`; safe. -/
  | disablePwmNeverSent
  /-- An item that is no instruction (R63, R70); raised by `step`; safe. -/
  | undecodable (why : DecodeError)
  deriving DecidableEq, Repr

/-- The machine's state. -/
@[ext]
structure State where
  /-- The configuration (R5 to R10): no step writes it. -/
  cfg : Config
  /-- `FB` (R20), by symbol. -/
  fb : List Drive
  /-- `CAL` (R21), by symbol. -/
  cal : List CalVal
  /-- `CAL_EN` (R22). -/
  calEn : Bool
  /-- `INIT_STATE` (R23). -/
  initState : InitState
  /-- `DATA` (R24). -/
  data : Bool
  /-- `CLK` (R24). -/
  clk : Bool
  /-- `LATCH` (R24). -/
  latch : Bool
  /-- `OUT` (R28), oldest first. -/
  out : List Event
  /-- The results returned so far, oldest first (R72, R186). -/
  results : List Result
  /-- `PS`, the persistent store (R29). -/
  ps : List Host.Cell
  /-- The anode-voltage PWM unit (R31). -/
  anode : PwmSetup
  /-- The chip-clock PWM unit (R31). -/
  chipClk : PwmSetup
  /-- The two driver chips (R30). -/
  chips : Chips
  /-- The host's pending requests, oldest first (R186, R187). -/
  requests : List Request
  /-- The model's own: outcomes of coming store accesses already settled, `true` for success (R29, U8), entry 7. -/
  storeDraws : List Bool
  /-- The model's own: how many free values have been used, entry 7. -/
  draws : Nat
  deriving DecidableEq, Repr

/-- A chip at power-up (R30d, R36). DESIGN CHOICE (entry 17) for all but the correction, which is on. -/
def Chip.powerUp (c : Config) : Chip where
  shift := List.replicate c.chipBits false
  outReg := List.replicate c.chipBits false
  duty := List.replicate c.bank 0
  corr := List.replicate c.bank 0
  correction := true
  phaseShift := false
  pwm := false

/-- Both chips at power-up. -/
def Chips.powerUp (c : Config) : Chips where
  chip1 := Chip.powerUp c
  chip2 := Chip.powerUp c
  fresh := true

/-- The power-on state of R36 for a configuration and a store content. DESIGN CHOICE (entries 2, 3, 22): `FB`, `CAL` and
the PWM units hold 0, where R36 gives no value. -/
def State.powerOn (c : Config) (ps : List Host.Cell) : State where
  cfg := c
  fb := List.replicate c.symbolCount 0
  cal := List.replicate c.symbolCount 0
  calEn := false
  initState := .unreset
  data := false
  clk := false
  latch := false
  out := []
  results := []
  ps := ps
  anode := ⟨0, 0⟩
  chipClk := ⟨0, 0⟩
  chips := Chips.powerUp c
  requests := []
  storeDraws := []
  draws := 0

/-- The machine right after power-on (R36, R170), the hardware's configuration, the store pre-zeroed (entry 5). -/
def State.reset : State := State.powerOn Config.hardware []

end Sys2Proof.Machine
end

