-- ==== Sys2Proof/Machine/Ops.lean ====
section
/-! DEFINITION. The primitives of spec/00_scope.md R15 (lines, delay, store, PWM units), the persistent store as a memory
(R29, R43), the free draws, and the ends of an operation: its result, an error (spec/60_exceptions.md R150 to R159), and
the acceptance rule (spec/44_controller.md R136). -/

namespace Sys2Proof.Machine

/-- The three outcomes of a step of this machine. -/
abbrev Outcome := Host.Outcome State Fault Refusal

/-! ### The persistent store -/

/-- What the store holds at an address; a byte that is not listed is 0 ("pre-zeroed", R29), entry 5. -/
def Memory.read : List Host.Cell → Nat → Byte
  | [], _ => 0
  | (b, v) :: rest, a => if a = b then v else Memory.read rest a

/-- The canonical form: addresses rising and no listed 0. -/
def Memory.wf : List Host.Cell → Bool
  | [] => true
  | (a, v) :: rest => decide (v ≠ 0) && (rest.all fun cell => decide (a < cell.1)) && Memory.wf rest

/-- One byte replaced, the canonical form kept. -/
def Memory.write : List Host.Cell → Nat → Byte → List Host.Cell
  | [], a, v => if v = 0 then [] else [(a, v)]
  | (b, x) :: rest, a, v =>
    if a < b then (if v = 0 then (b, x) :: rest else (a, v) :: (b, x) :: rest)
    else if a = b then (if v = 0 then rest else (a, v) :: rest)
    else (b, x) :: Memory.write rest a v

/-- `n` bytes from an address upwards (R15, R43). -/
def Memory.readBytes (m : List Host.Cell) (a n : Nat) : List Byte :=
  (List.range n).map fun i => Memory.read m (a + i)

/-- Bytes written from an address upwards (R15, R43). -/
def Memory.writeBytes : List Host.Cell → Nat → List Byte → List Host.Cell
  | m, _, [] => m
  | m, a, b :: rest => Memory.writeBytes (Memory.write m a b) (a + 1) rest

/-! ### Lines and events -/

/-- The level of line `l` after an event. -/
def Event.levelOn (l : Line) (v : Bool) : Event → Bool
  | .level l' v' => if l' = l then v' else v
  | .delay _ => v
  | .nvRead _ _ => v
  | .nvWrite _ _ => v
  | .pwm _ _ => v

/-- The level of line `l` after a list of events. -/
def levelAfter (l : Line) (v : Bool) (evs : List Event) : Bool := evs.foldl (Event.levelOn l) v

/-- Append events to `OUT`, each level event setting its line register (R15). -/
def State.drive (evs : List Event) (s : State) : State :=
  { s with
    out := s.out ++ evs
    data := levelAfter .data s.data evs
    clk := levelAfter .clk s.clk evs
    latch := levelAfter .latch s.latch evs }

/-- `setLevel(l, v)` (R15). -/
def State.setLevel (l : Line) (v : Bool) (s : State) : State := s.drive [.level l v]

/-- `sleepMilliseconds(n)` (R15). -/
def State.sleepMs (n : Nat) (s : State) : State := s.drive [.delay n]

/-- A PWM unit after it is programmed (R31). -/
def programUnit (p : PwmSetup) : PwmProgram → PwmSetup
  | .setup q => q
  | .duty d => { p with duty := d }

/-- `pwmProgram(unit, what)` (R15, R31). -/
def State.pwmProgram (unit : PwmUnit) (what : PwmProgram) (s : State) : State :=
  let s := s.drive [.pwm unit what]
  match unit with
  | .anode => { s with anode := programUnit s.anode what }
  | .chipClk => { s with chipClk := programUnit s.chipClk what }

/-! ### Store accesses and free values -/

/-- Whether the next store access succeeds: a draw (R29, U8), settled beforehand or free, entry 7. -/
def State.storeOk (s : State) : Bool :=
  match s.storeDraws with
  | ok :: _ => ok
  | [] => Config.freeBool s.draws

/-- The draw of one store access used up. -/
def State.useStoreDraw (s : State) : State :=
  { s with storeDraws := s.storeDraws.tail, draws := s.draws + 1 }

/-- `n` free values used up. -/
def State.useDraws (n : Nat) (s : State) : State := { s with draws := s.draws + n }

/-- `n` free bytes from draw `d` on. -/
def freeBytes (d n : Nat) : List Byte := (List.range n).map fun i => Config.freeByte (d + i)

/-- `MemRead(addr, n)` (R15): the event, and the bytes or a failure. -/
def State.memRead (addr n : Nat) (s : State) : Option (List Byte) × State :=
  (if s.storeOk then some (Memory.readBytes s.ps addr n) else none, (s.drive [.nvRead addr n]).useStoreDraw)

/-- The store after a write access: the bytes, or after a failure any bytes in their place (U6), entry 9. -/
def State.storeAfterWrite (addr : Nat) (bytes : List Byte) (s : State) : List Host.Cell :=
  Memory.writeBytes s.ps addr (if s.storeOk then bytes else freeBytes (s.draws + 1) bytes.length)

/-- `MemWrite(addr, n, bytes)` (R15): the event, the store, and whether it succeeded. -/
def State.memWrite (addr : Nat) (bytes : List Byte) (s : State) : Bool × State :=
  (s.storeOk,
    { (s.drive [.nvWrite addr bytes]).useStoreDraw with
      ps := s.storeAfterWrite addr bytes
      draws := s.draws + 1 + bytes.length })

/-! ### The ends of an operation -/

/-- The result handed to the caller (R72, R156). -/
def State.withResult (r : Result) (s : State) : State := { s with results := s.results ++ [r] }

/-- `return Ok` (R15): the return to the caller. -/
def State.finish (s : State) : Outcome := .next (s.withResult .ok)

/-- `return Err(kind)` (R15): the block's whole exception entry. It saves nothing, changes no mode and goes nowhere: the
kind is all the caller gets (R150, R155, R156, R159). -/
def State.fail (kind : ErrorKind) (s : State) : Outcome := .next (s.withResult (.err kind))

/-- The acceptance rule (R136, R170): outside `PwmEnabled` the operation is refused. -/
def State.guarded (s : State) (o : Outcome) : Outcome :=
  if s.initState = .pwmEnabled then o else .refused .notInitialized

/-- A power cycle of block and chips together (R36, R166, R187): the store keeps its content. -/
def State.powerCycle (s : State) : State :=
  { State.powerOn s.cfg s.ps with storeDraws := s.storeDraws, draws := s.draws }

end Sys2Proof.Machine
end

