-- ==== Sys2Proof/Machine/Flags.lean ====
section
/-! DEFINITION. The block's only flags (spec/10_state.md R22, R23, R26) and the result codes (spec/30_encoding.md R72). -/

namespace Sys2Proof.Machine

/-- `CAL_EN <- v` (R22). -/
def State.setCalEn (v : Bool) (s : State) : State := { s with calEn := v }

/-- `INIT_STATE <- i` (R23). -/
def State.setInitState (i : InitState) (s : State) : State := { s with initState := i }

/-- The code of an error kind (R72, R150). -/
def ErrorKind.code : ErrorKind → BitVec 3
  | .outOfRange => 1
  | .invalidIndex => 2
  | .unsupportedProduct => 3
  | .persistenceFailure => 4
  | .illegalRequest => 7

/-- The 3-bit result code (R72). -/
def Result.code : Result → BitVec 3
  | .ok => 0
  | .err kind => kind.code

end Sys2Proof.Machine
end

