-- ==== Sys2Proof/Machine/Operands.lean ====
section
/-! DEFINITION. Operand assembly and the range checks (spec/30_encoding.md R74, spec/20_memory.md R44 and R45,
spec/60_exceptions.md R151 and R152): an operand is its field's zero-extended integer, checked whole, then narrowed. -/

namespace Sys2Proof.Machine

/-- A drive value operand: `value[11:0]` if `value <= 4095` (R74, R90). -/
def driveOperand (v : Operand) : Option Drive :=
  if v.toNat > 4095 then none else some (v.setWidth 12)

/-- A symbol operand below `SYMBOL_COUNT` (R45, R91). -/
def symbolOperand (c : Config) (i : Byte) : Option Nat :=
  if i.toNat ≥ c.symbolCount then none else some i.toNat

/-- A digit operand below `DIGIT_COUNT` (R45, R92). -/
def digitOperand (c : Config) (d : Byte) : Option Nat :=
  if d.toNat ≥ c.digitCount then none else some d.toNat

/-- An anode voltage up to `MAX_VOLTAGE` (R133). -/
def voltsOperand (c : Config) (v : Operand) : Option Nat :=
  if v.toNat > c.maxVoltage then none else some v.toNat

/-- The calibration entries narrowed to 6 bits, if every one of them is at most 63 (R74, R101, R102). -/
def calOperands (values : List Byte) : Option (List CalVal) :=
  if values.all fun b => decide (b.toNat ≤ 63) then some (values.map fun b => b.setWidth 6) else none

end Sys2Proof.Machine
end

