-- ==== Sys2Proof/Machine/Tables.lean ====
section
/-! DEFINITION. ChannelMap, GlyphFont and the glyph-to-segment decoder (spec/40_tables_glyph.md). Pure lookups in the
configuration. -/

namespace Sys2Proof.Machine

/-- `symbolForChannel(c)` (R80). -/
def symbolForChannel (c : Config) (channel : Nat) : Option Nat := (c.chanMap[channel]?).join

/-- Segment slot `i` of digit `d` (R81). -/
def segmentSymbol (c : Config) (d i : Nat) : Option Nat := ((c.segMap[d]?.getD [])[i]?).join

/-- `segmentSymbols(d)`: the seven slots, A first (R81). -/
def segmentSymbols (c : Config) (d : Nat) : List (Option Nat) := (List.range 7).map (segmentSymbol c d)

/-- `segmentsForCharacter(ch)` (R82). -/
def segmentsForCharacter (c : Config) (ch : Byte) : Mask := c.maskOf ch

/-- `lit(ch, i)` (R83). -/
def lit (c : Config) (ch : Byte) (i : Nat) : Bool := (segmentsForCharacter c ch).getLsbD i

/-- The decoder's output for a digit: the slot's symbol and whether it is lit, A first (R83). -/
def decodeGlyph (c : Config) (ch : Byte) (d : Nat) : List (Option Nat × Bool) :=
  (List.range 7).map fun i => (segmentSymbol c d i, lit c ch i)

end Sys2Proof.Machine
end

