-- ==== Sys2Proof/Machine/Frame.lean ====
section
/-! DEFINITION. The frame buffer operations (spec/41_framebuffer.md): in-memory only (R94). -/

namespace Sys2Proof.Machine

/-- `FB <- values` (R20). -/
def State.setFb (values : List Drive) (s : State) : State := { s with fb := values }

/-- `snapshot()` (R93). -/
def State.snapshot (s : State) : List Drive := s.fb

/-- `setAll(value)` (R90). -/
def execSetAll (value : Operand) (s : State) : Outcome :=
  s.guarded <|
    match driveOperand value with
    | none => s.fail .outOfRange
    | some v => (s.setFb (List.replicate s.cfg.symbolCount v)).finish

/-- `setSymbol(symbol, value)` (R91): the value is checked first (R157). -/
def execSetSymbol (symbol : Byte) (value : Operand) (s : State) : Outcome :=
  s.guarded <|
    match driveOperand value, symbolOperand s.cfg symbol with
    | none, _ => s.fail .outOfRange
    | some _, none => s.fail .invalidIndex
    | some v, some i => (s.setFb (s.fb.set i v)).finish

/-- One segment of a digit written: lit gives the value, dark gives 0, an unconnected slot nothing (R92, D13). -/
def writeSegment (v : Drive) (fb : List Drive) (slot : Option Nat × Bool) : List Drive :=
  match slot.1 with
  | some i => fb.set i (if slot.2 then v else 0)
  | none => fb

/-- The seven segments written in order, A first (R92, D21). -/
def drawDigit (c : Config) (char : Byte) (d : Nat) (v : Drive) (fb : List Drive) : List Drive :=
  (decodeGlyph c char d).foldl (writeSegment v) fb

/-- `renderDigit(character, digit, value)` (R92): the product, then the index, then the value are checked (R157). -/
def execRenderDigit (char digit : Byte) (value : Operand) (s : State) : Outcome :=
  s.guarded <|
    if s.cfg.digitCount = 0 then s.fail .unsupportedProduct
    else
      match digitOperand s.cfg digit, driveOperand value with
      | none, _ => s.fail .invalidIndex
      | some _, none => s.fail .outOfRange
      | some d, some v => (s.setFb (drawDigit s.cfg char d v s.fb)).finish

end Sys2Proof.Machine
end

