-- ==== Sys2Proof/Machine/Calibration.lean ====
section
/-! DEFINITION. The calibration-value encoder, the calibration registers and the load from the store
(spec/42_calibration.md R100, R103; spec/30_encoding.md R67; spec/20_memory.md R43). -/

namespace Sys2Proof.Machine

/-- `expand(c)`: 6 bits to 12 bits, a left shift by 6 (R67). -/
def expand (v : CalVal) : Drive := v.setWidth 12 <<< 6

/-- `expandAll()` (R100). -/
def State.expandAll (s : State) : List Drive := s.cal.map expand

/-- `CAL <- values` (R21). -/
def State.setCal (values : List CalVal) (s : State) : State := { s with cal := values }

/-- The calibration image: one byte per symbol, bits 7:6 zero (R43). -/
def State.calImage (s : State) : List Byte := s.cal.map fun v => v.setWidth 8

/-- A calibration register loaded from a byte: the byte if it is at most 63, else any value (R103, U5), entry 8. -/
def calFromByte (b : Byte) (free : CalVal) : CalVal := if b.toNat ≤ 63 then b.setWidth 6 else free

/-- The registers after a read: from the bytes, or any values after a failed read (R103, U5, U7), entry 8. -/
def calLoaded (n d : Nat) (r : Option (List Byte)) : List CalVal :=
  (List.range n).map fun i =>
    match r with
    | some bytes => calFromByte (bytes.getD i 0) (Config.freeCal (d + i))
    | none => Config.freeCal (d + i)

/-- `loadFromPersistent()` (R103): whether the read succeeded, and the state after. -/
def State.loadFromPersistent (s : State) : Bool × State :=
  let r := s.memRead s.cfg.calAddr s.cfg.symbolCount
  (r.1.isSome, (r.2.setCal (calLoaded s.cfg.symbolCount r.2.draws r.1)).useDraws s.cfg.symbolCount)

end Sys2Proof.Machine
end

