-- ==== Sys2Proof/WellFormed.lean ====
section
/-! DEFINITION. Which instructions can be presented to a given configuration (spec/30_encoding.md R71). The configuration's
own well-formedness stands in Sys2Proof/Config.lean, since a configuration carries it. -/

namespace Sys2Proof

/-- An instruction that the request encoding can express: the payload of `setCalibration` has exactly `SYMBOL_COUNT`
entries (R71); every other operand fills its field. -/
def Instr.wellFormed (c : Config) : Instr → Bool
  | .setCalibration _ values => decide (values.length = c.symbolCount)
  | .hostInit => true
  | .setAnodeVoltage _ => true
  | .setAll _ => true
  | .setSymbol _ _ => true
  | .renderDigit _ _ _ => true
  | .commitFrame => true
  | .setCalibrationEnabled _ => true
  | .updatePwm => true
  | .toggleCorrection => true
  | .updateCorrection => true
  | .enablePwm => true
  | .disablePwm => true
  | .togglePhaseShift => true
  | .reserved _ => true

end Sys2Proof
end

