-- ==== Sys2Proof/Decode.lean ====
section
/-! DEFINITION. The decoder and the encoder of host requests (spec/30_encoding.md R69 to R74) and of wire commands (R63).
The decoder is total and rejects by name. -/

namespace Sys2Proof

/-- `OP`, bits 39:36 (R69). -/
def opField (w : ReqWord) : BitVec 4 := w.extractLsb' 36 4

/-- `FLAG`, bit 35 (R69). -/
def flagField (w : ReqWord) : Bool := w.getLsbD 35

/-- `CHR`, bits 31:24 (R69). -/
def chrField (w : ReqWord) : Byte := w.extractLsb' 24 8

/-- `IDX`, bits 23:16 (R69). -/
def idxField (w : ReqWord) : Byte := w.extractLsb' 16 8

/-- `VAL`, bits 15:0 (R69). -/
def valField (w : ReqWord) : Operand := w.extractLsb' 0 16

/-- The low three bits of a reserved selector, bits 38:36 (R73). -/
def selField (w : ReqWord) : BitVec 3 := w.extractLsb' 36 3

/-- The operation a word selects, with its operands as their fields hold them (R70, R74). Bits an operation does not use
are ignored (R69). -/
def decodeOp (w : ReqWord) (payload : List Byte) : Instr :=
  match (opField w).toNat with
  | 0 => .hostInit
  | 1 => .setAnodeVoltage (valField w)
  | 2 => .setAll (valField w)
  | 3 => .setSymbol (idxField w) (valField w)
  | 4 => .renderDigit (chrField w) (idxField w) (valField w)
  | 5 => .commitFrame
  | 6 => .setCalibration (flagField w) payload
  | 7 => .setCalibrationEnabled (flagField w)
  | _ => .reserved (selField w)

/-- A host request: only `OP = 6` is followed by a payload (R69, R70). -/
def decodeWord (w : ReqWord) (payload : List Byte) : Except DecodeError Instr :=
  if (opField w).toNat = 6 then .ok (decodeOp w payload)
  else if payload.isEmpty then .ok (decodeOp w payload)
  else .error .unexpectedPayload

/-- The 8-bit code of a wire command (R63): a parameter of the product. -/
def Config.code (c : Config) : WireCommand → Byte
  | .updatePwm => c.cmdUpdatePwm
  | .enablePwm => c.cmdEnablePwm
  | .disablePwm => c.cmdDisablePwm
  | .toggleCorrection => c.cmdToggleCorrection
  | .updateCorrection => c.cmdUpdateCorrection
  | .togglePhaseShift => c.cmdTogglePhaseShift

/-- The wire command a code stands for (R63). -/
def Config.wireOf (c : Config) (code : Byte) : Option WireCommand :=
  if code = c.cmdUpdatePwm then some .updatePwm
  else if code = c.cmdEnablePwm then some .enablePwm
  else if code = c.cmdDisablePwm then some .disablePwm
  else if code = c.cmdToggleCorrection then some .toggleCorrection
  else if code = c.cmdUpdateCorrection then some .updateCorrection
  else if code = c.cmdTogglePhaseShift then some .togglePhaseShift
  else none

/-- The instruction of a wire command. -/
def WireCommand.instr : WireCommand → Instr
  | .updatePwm => .updatePwm
  | .enablePwm => .enablePwm
  | .disablePwm => .disablePwm
  | .toggleCorrection => .toggleCorrection
  | .updateCorrection => .updateCorrection
  | .togglePhaseShift => .togglePhaseShift

/-- A bare command code (R63). -/
def decodeWire (c : Config) (code : Byte) : Except DecodeError Instr :=
  match c.wireOf code with
  | some w => .ok w.instr
  | none => .error .unknownWireCode

/-- The decoder: total on anything that can be presented. -/
def decode (c : Config) : Request → Except DecodeError Instr
  | .host w payload => decodeWord w payload
  | .wire code => decodeWire c code

/-- A request word from its fields (R69); the unused bits 34:32 are 0. -/
def packWord (op : BitVec 4) (flag : Bool) (chr idx : Byte) (val : Operand) : ReqWord :=
  op ++ BitVec.ofBool flag ++ 0#3 ++ chr ++ idx ++ val

/-- The encoder: fields an operation does not use are 0. -/
def encode (c : Config) : Instr → Request
  | .hostInit => .host (packWord 0 false 0 0 0) []
  | .setAnodeVoltage volts => .host (packWord 1 false 0 0 volts) []
  | .setAll value => .host (packWord 2 false 0 0 value) []
  | .setSymbol symbol value => .host (packWord 3 false 0 symbol value) []
  | .renderDigit char digit value => .host (packWord 4 false char digit value) []
  | .commitFrame => .host (packWord 5 false 0 0 0) []
  | .setCalibration persist values => .host (packWord 6 persist 0 0 0) values
  | .setCalibrationEnabled enable => .host (packWord 7 enable 0 0 0) []
  | .updatePwm => .wire (c.code .updatePwm)
  | .toggleCorrection => .wire (c.code .toggleCorrection)
  | .updateCorrection => .wire (c.code .updateCorrection)
  | .enablePwm => .wire (c.code .enablePwm)
  | .disablePwm => .wire (c.code .disablePwm)
  | .togglePhaseShift => .wire (c.code .togglePhaseShift)
  | .reserved sel => .host (packWord (1#1 ++ sel) false 0 0 0) []

/-- The item whose bits the opcode table numbers: a row of at most 8 bits is a command code, any other a request word,
followed for `OP = 6` by `SYMBOL_COUNT` zero bytes, entry 34. -/
def tableRequest (c : Config) (nbits w : Nat) : Request :=
  if nbits ≤ 8 then .wire (BitVec.ofNat 8 w)
  else
    .host (BitVec.ofNat 40 w)
      (if (opField (BitVec.ofNat 40 w)).toNat = 6 then List.replicate c.symbolCount 0 else [])

/-- What the decoder reads from a row's bits, under the hardware's configuration. -/
def decodeTableWord (nbits w : Nat) : Option Instr :=
  (decode Config.hardware (tableRequest Config.hardware nbits w)).toOption

end Sys2Proof
end

