-- ==== Sys2Proof/Machine/Serializer.lean ====
section
/-! DEFINITION. The serializer (spec/43_serializer.md R110 to R117, spec/30_encoding.md R60 to R66): the events of one
transmission, the frame they carry, and the position machine of spec/10_state.md R25. -/

namespace Sys2Proof.Machine

/-- The bits of a field in the order they are sent, most significant first (R41, R62, R63). -/
def msbFirst {n : Nat} (v : BitVec n) : List Bool := (List.range n).map v.getMsbD

/-- The number a bit list spells, earliest bit most significant (R13, R66). -/
def bitsToNat (bits : List Bool) : Nat := bits.foldl (fun acc b => 2 * acc + b.toNat) 0

/-- `pulse(b)` (R64). -/
def pulse (b : Bool) : List Event := [.level .data b, .level .clk true, .level .clk false]

/-- `emit12(v)` and `emit8(k)` (R112). -/
def emitField {n : Nat} (v : BitVec n) : List Event := (msbFirst v).flatMap pulse

/-- The value sent for a physical channel: its symbol's, or 0 if it is unconnected (R111). -/
def channelValue (c : Config) (values : List Drive) (channel : Nat) : Drive :=
  match symbolForChannel c channel with
  | some i => values.getD i 0
  | none => 0

/-- The channels `top - 1` down to `top - n` (R42). -/
def channelsDown (top n : Nat) : List Nat := (List.range n).map fun k => top - 1 - k

/-- Steps 6 and 7: data line low, latch pulse (R65, R113). -/
def terminator : List Event := [.level .data false, .level .latch true, .level .latch false]

/-- The events of `transmit(cmd, V)`, in the fixed order of R113; `value` is `val` of R111. -/
def transmission (c : Config) (cmd : Byte) (value : Nat → Drive) : List Event :=
  (channelsDown c.channelCount c.bank).flatMap (fun ch => emitField (value ch)) ++ emitField cmd ++
    (channelsDown c.bank c.bank).flatMap (fun ch => emitField (value ch)) ++ emitField cmd ++ terminator

/-- The bits of a frame in the order they are sent (R61). -/
def frameBits (c : Config) (cmd : Byte) (value : Nat → Drive) : List Bool :=
  (channelsDown c.channelCount c.bank).flatMap (fun ch => msbFirst (value ch)) ++ msbFirst cmd ++
    (channelsDown c.bank c.bank).flatMap (fun ch => msbFirst (value ch)) ++ msbFirst cmd

/-! ### The receiver's view -/

/-- The bits a receiver samples: the `DATA` level at each `L(CLK, 1)` (R30a, R64, R66), `level` the level before. -/
def sampled : Bool → List Event → List Bool
  | _, [] => []
  | level, e :: rest =>
    match e with
    | .level .data v => sampled v rest
    | .level .clk true => level :: sampled level rest
    | _ => sampled level rest

/-- The field of `n` bits that a chip's bits hold from bit time `t` on (R66). -/
def fieldAt (n : Nat) (bits : List Bool) (t : Nat) : BitVec n := BitVec.ofNat n (bitsToNat ((bits.drop t).take n))

/-- The values of a bank's channels in a chip's bits, by channel within the bank: the highest came first (R66). -/
def bankValues (c : Config) (bits : List Bool) : List Drive :=
  (List.range c.bank).map fun j => fieldAt 12 bits (12 * (c.bank - 1 - j))

/-- The command in a chip's bits: the 8 bits that entered it last (R66). -/
def bankCommand (c : Config) (bits : List Bool) : Byte := fieldAt 8 bits (12 * c.bank)

/-! ### The serializer position (R25) -/

/-- The phases of a transmission (R25). -/
inductive Phase where
  | bank2Data
  | bank2Cmd
  | bank1Data
  | bank1Cmd
  | dataIdle
  | latchHigh
  | latchLow
  deriving DecidableEq, Repr

/-- The position `(phase, ch, bit)` (R25). -/
structure Position where
  phase : Phase
  ch : Nat
  bit : Nat
  deriving DecidableEq, Repr

/-- Where a transmission starts (R25). -/
def Position.start (c : Config) : Position := ⟨.bank2Data, c.channelCount - 1, 11⟩

/-- The position after `p`, `none` at the end: one fixed order (R25, R113). -/
def Position.next (c : Config) (p : Position) : Option Position :=
  match p.phase, p.bit with
  | .bank2Data, b + 1 => some { p with bit := b }
  | .bank2Data, 0 => if p.ch > c.bank then some { p with ch := p.ch - 1, bit := 11 } else some { p with phase := .bank2Cmd, bit := 7 }
  | .bank2Cmd, b + 1 => some { p with bit := b }
  | .bank2Cmd, 0 => some ⟨.bank1Data, c.bank - 1, 11⟩
  | .bank1Data, b + 1 => some { p with bit := b }
  | .bank1Data, 0 => if p.ch > 0 then some { p with ch := p.ch - 1, bit := 11 } else some { p with phase := .bank1Cmd, bit := 7 }
  | .bank1Cmd, b + 1 => some { p with bit := b }
  | .bank1Cmd, 0 => some { p with phase := .dataIdle, bit := 0 }
  | .dataIdle, _ => some { p with phase := .latchHigh }
  | .latchHigh, _ => some { p with phase := .latchLow }
  | .latchLow, _ => none

/-- What the serializer emits at a position (R113). -/
def Position.emit (cmd : Byte) (value : Nat → Drive) (p : Position) : List Event :=
  match p.phase with
  | .bank2Data => pulse ((value p.ch).getLsbD p.bit)
  | .bank2Cmd => pulse (cmd.getLsbD p.bit)
  | .bank1Data => pulse ((value p.ch).getLsbD p.bit)
  | .bank1Cmd => pulse (cmd.getLsbD p.bit)
  | .dataIdle => [.level .data false]
  | .latchHigh => [.level .latch true]
  | .latchLow => [.level .latch false]

/-- The events of at most `fuel` positions from `p` on. -/
def Position.run (c : Config) (cmd : Byte) (value : Nat → Drive) : Nat → Option Position → List Event
  | 0, _ => []
  | _ + 1, none => []
  | fuel + 1, some p => p.emit cmd value ++ Position.run c cmd value fuel (p.next c)

end Sys2Proof.Machine
end

