-- ==== Sys2Proof/Machine/Chips.lean ====
section
/-! DEFINITION. The two driver chips as receivers of the three lines: what spec/10_state.md R30 says of them and no more,
with free values where it is silent (entries 17 to 21). They see a transmission through its events only. -/

namespace Sys2Proof.Machine

/-- How many free values one chip's latch uses. -/
def Chip.drawsPerLatch : Nat := 4

/-- The duties after a frame whose data the chips may load or ignore (R30, N10, U3): a free choice, entry 18. -/
def Chip.loadOrKeep (c : Config) (d : Nat) (chip : Chip) : List Drive :=
  if Config.freeBool d then bankValues c chip.outReg else chip.duty

/-- A chip acts on the command its output register holds (R30, R119 to R124). For disable-PWM and for a code outside the
six nothing is known (N9, N26), entry 21: the mode bits are free. -/
def Chip.act (c : Config) (d : Nat) (chip : Chip) : Chip :=
  match c.wireOf (bankCommand c chip.outReg) with
  | some .updatePwm => { chip with duty := bankValues c chip.outReg }
  | some .updateCorrection => { chip with corr := bankValues c chip.outReg }
  | some .toggleCorrection => { chip with correction := !chip.correction, duty := chip.loadOrKeep c d }
  | some .togglePhaseShift => { chip with phaseShift := !chip.phaseShift, duty := chip.loadOrKeep c d }
  | some .enablePwm => { chip with pwm := true, duty := chip.loadOrKeep c d }
  | some .disablePwm | none =>
    { chip with
      correction := Config.freeBool (d + 1)
      phaseShift := Config.freeBool (d + 2)
      pwm := Config.freeBool (d + 3)
      duty := chip.loadOrKeep c d }

/-- The latch pulse transfers the shifted bits into the output register, and the chip acts on them (R30b, R48). -/
def Chip.latchPulse (c : Config) (d : Nat) (chip : Chip) : Chip :=
  Chip.act c d { chip with outReg := chip.shift }

/-- Bits clocked into the chain push the earlier ones towards chip 2, the far end (R30a, R42, R66). -/
def Chips.shiftIn (c : Config) (bits : List Bool) (chips : Chips) : Chips :=
  let chain := chips.chip2.shift ++ chips.chip1.shift ++ bits
  let kept := chain.drop (chain.length - 2 * c.chipBits)
  { chips with
    chip2 := { chips.chip2 with shift := kept.take c.chipBits }
    chip1 := { chips.chip1 with shift := kept.drop c.chipBits } }

/-- Both chips take the latch pulse simultaneously (R30b). -/
def Chips.latchPulse (c : Config) (d : Nat) (chips : Chips) : Chips :=
  { chip2 := chips.chip2.latchPulse c d
    chip1 := chips.chip1.latchPulse c (d + Chip.drawsPerLatch)
    fresh := false }

/-- The chips receive the events of one transmission, `level` the `DATA` level before it (R30a, R30b). -/
def Chips.receive (c : Config) (d : Nat) (level : Bool) (evs : List Event) (chips : Chips) : Chips :=
  (chips.shiftIn c (sampled level evs)).latchPulse c d

/-- How many free values one transmission uses. -/
def drawsPerTransmission : Nat := 2 * Chip.drawsPerLatch

/-- A chip in the reset hold: its shift register is cleared (R30c). Out of the power-up state its correction and
phase-shift state are then any value (R137, R176, U11), entry 19. -/
def Chip.hold (c : Config) (fresh : Bool) (d : Nat) (chip : Chip) : Chip :=
  { chip with
    shift := List.replicate c.chipBits false
    correction := if fresh then chip.correction else Config.freeBool d
    phaseShift := if fresh then chip.phaseShift else Config.freeBool (d + 1) }

/-- How many free values one reset hold uses. -/
def drawsPerHold : Nat := 4

/-- Both chips in the reset hold (R30c, R131). -/
def Chips.hold (c : Config) (d : Nat) (chips : Chips) : Chips :=
  { chip2 := chips.chip2.hold c chips.fresh d
    chip1 := chips.chip1.hold c chips.fresh (d + 2)
    fresh := false }

/-! ### A monitor of OUT (R34, R66) -/

/-- What a receiver of `OUT` remembers: the data level, the bits clocked in since the last latch (newest first), the
commands of the frames latched so far (chip 2's and chip 1's, oldest first) and how many of these frames came before the
latest reset hold. -/
structure Monitor where
  level : Bool
  bits : List Bool
  sent : List (Byte × Byte)
  beforeHold : Nat
  deriving DecidableEq, Repr

/-- The monitor before any event. -/
def Monitor.start : Monitor := ⟨false, [], [], 0⟩

/-- The two command fields of the bits clocked in (R61). -/
def Monitor.commands (c : Config) (m : Monitor) : Byte × Byte :=
  (fieldAt 8 m.bits.reverse (12 * c.bank), fieldAt 8 m.bits.reverse (24 * c.bank + 8))

/-- The monitor at a rising latch: a whole frame is recorded, anything else (the reset hold) is none (R60, R118). -/
def Monitor.onLatch (c : Config) (m : Monitor) : Monitor :=
  { m with bits := [], sent := if m.bits.length = c.frameLength then m.sent ++ [m.commands c] else m.sent }

/-- The monitor after an event; a delay is the reset hold (R131). -/
def Monitor.onEvent (c : Config) (m : Monitor) : Event → Monitor
  | .level .data v => { m with level := v }
  | .level .clk true => { m with bits := m.level :: m.bits }
  | .level .clk false => m
  | .level .latch true => m.onLatch c
  | .level .latch false => m
  | .delay _ => { m with beforeHold := m.sent.length }
  | .nvRead _ _ => m
  | .nvWrite _ _ => m
  | .pwm _ _ => m

/-- The monitor after a list of events. -/
def Monitor.after (c : Config) (m : Monitor) (evs : List Event) : Monitor := evs.foldl (Monitor.onEvent c) m

/-- The monitor after all of `OUT`. -/
def monitor (c : Config) (out : List Event) : Monitor := Monitor.start.after c out

/-- The toggle-correction transmissions since the latest reset hold, the reset sequence's own among them (R34). -/
def Monitor.toggles (c : Config) (m : Monitor) : Nat :=
  (m.sent.drop m.beforeHold).countP fun p => decide (p.1 = c.code .toggleCorrection)

end Sys2Proof.Machine
end

