-- ==== Sys2Proof/Machine/Wire.lean ====
section
/-! DEFINITION. `transmit` (spec/43_serializer.md R110, R113) and the six wire commands (R118 to R125). A wire command is
sent as a whole frame; its data slots are the `FB` snapshot or, for update-correction, the expanded calibration. No flag
is written: the sender does that (R120, R122). -/

namespace Sys2Proof.Machine

/-- `transmit(cmd, V)`: the events go out, the lines follow, and the chips receive them (R110, R113). -/
def State.transmit (w : WireCommand) (values : List Drive) (s : State) : State :=
  let evs := transmission s.cfg (s.cfg.code w) (channelValue s.cfg values)
  { s.drive evs with
    chips := s.chips.receive s.cfg s.draws s.data evs
    draws := s.draws + drawsPerTransmission }

/-- A bare wire command: one whole frame (R118), and like everything but `initialize` it waits for `initialize` (R170, R173;
`FB` and `CAL` hold no value before, R36, R136), entry 11. -/
def State.sendBare (w : WireCommand) (values : List Drive) (s : State) : Outcome :=
  s.guarded (.next (s.transmit w values))

/-- update-PWM (R119). -/
def execUpdatePwm (s : State) : Outcome := s.sendBare .updatePwm s.snapshot

/-- toggle-correction (R120, R125). -/
def execToggleCorrection (s : State) : Outcome := s.sendBare .toggleCorrection s.snapshot

/-- update-correction (R121). -/
def execUpdateCorrection (s : State) : Outcome := s.sendBare .updateCorrection s.expandAll

/-- enable-PWM (R122, R125). -/
def execEnablePwm (s : State) : Outcome := s.sendBare .enablePwm s.snapshot

/-- toggle-phase-shift (R124, R125). -/
def execTogglePhaseShift (s : State) : Outcome := s.sendBare .togglePhaseShift s.snapshot

/-- disable-PWM: "A model carries the constant ... and no rule that sends it" (R123), entry 12. -/
def execDisablePwm (_ : State) : Outcome := .refused .disablePwmNeverSent

end Sys2Proof.Machine
end

