-- ==== Sys2Proof/Machine/Controller.lean ====
section
/-! DEFINITION. The DeviceController (spec/44_controller.md R130 to R137), the two calibration operations
(spec/42_calibration.md R101, R104) and the reserved selectors (spec/30_encoding.md R73). -/

namespace Sys2Proof.Machine

/-- The latch-high hold of the reset sequence, a blocking wait, and what it does to the chips (R131, R177, R30c). -/
def State.resetHold (s : State) : State :=
  let t := ((s.setLevel .latch true).sleepMs s.cfg.resetHoldMs).setLevel .latch false
  { t with chips := s.chips.hold s.cfg s.draws, draws := s.draws + drawsPerHold }

/-- `Unreset -> Latched` (R131, R132). -/
def State.toLatched (s : State) : State := (s.setInitState .unreset).resetHold.setInitState .latched

/-- `Latched -> CorrectionDisabled` (R131, R132). -/
def State.toCorrectionDisabled (s : State) : State :=
  ((s.transmit .toggleCorrection s.snapshot).setCalEn false).setInitState .correctionDisabled

/-- `CorrectionDisabled -> PhaseShiftEnabled` (R131, R132). -/
def State.toPhaseShiftEnabled (s : State) : State :=
  (s.transmit .togglePhaseShift s.snapshot).setInitState .phaseShiftEnabled

/-- `PhaseShiftEnabled -> PwmEnabled` (R131, R132). -/
def State.toPwmEnabled (s : State) : State := (s.transmit .enablePwm s.snapshot).setInitState .pwmEnabled

/-- `resetSequence()` (R131): the fixed sequence of R132. -/
def State.resetSequence (s : State) : State :=
  s.toLatched.toCorrectionDisabled.toPhaseShiftEnabled.toPwmEnabled

/-- The first lines of `initialize`: both PWM units at their defaults, the frame buffer blanked (R130). -/
def State.blankAndProgram (s : State) : State :=
  ((s.pwmProgram .anode (.setup s.cfg.pwmAnode)).pwmProgram .chipClk (.setup s.cfg.pwmChipClk)).setFb
    (List.replicate s.cfg.symbolCount 0)

/-- The result of `initialize` and of a persisting `setCalibration`: `PersistenceFailure` if the access failed (R154). -/
def storeResult (ok : Bool) : Result := if ok then .ok else .err .persistenceFailure

/-- `initialize()` (R130): accepted in every `INIT_STATE` (R73d, R137). -/
def execHostInit (s : State) : Outcome :=
  let r := s.blankAndProgram.resetSequence.loadFromPersistent
  .next ((r.2.transmit .updateCorrection r.2.expandAll).withResult (storeResult r.1))

/-- The duty for a voltage, linear in it (R133), entry 23. -/
def anodeDuty (c : Config) (volts : Nat) : Rat := volts * c.voltScale

/-- `setAnodeVoltage(volts)` (R133). -/
def execSetAnodeVoltage (volts : Operand) (s : State) : Outcome :=
  s.guarded <|
    match voltsOperand s.cfg volts with
    | none => s.fail .outOfRange
    | some v => (s.pwmProgram .anode (.duty (anodeDuty s.cfg v))).finish

/-- `commitFrame()` (R134). -/
def execCommitFrame (s : State) : Outcome :=
  s.guarded (s.transmit .updatePwm s.snapshot).finish

/-- The store write of `setCalibration`, made only if `persist` is 1 (R101). -/
def State.persistCal (persist : Bool) (s : State) : Bool × State :=
  if persist then s.memWrite s.cfg.calAddr s.calImage else (true, s)

/-- `setCalibration(values, persist)` (R101): every entry is checked first (R102); then `CAL`, then the store, then the
transmission; a failed write is reported after the transmission (R55, R154). -/
def execSetCalibration (persist : Bool) (values : List Byte) (s : State) : Outcome :=
  s.guarded <|
    if values.length ≠ s.cfg.symbolCount then .refused .payloadLength
    else
      match calOperands values with
      | none => s.fail .outOfRange
      | some entries =>
        let r := (s.setCal entries).persistCal persist
        .next ((r.2.transmit .updateCorrection r.2.expandAll).withResult (storeResult r.1))

/-- `setCalibrationEnabled(enable)` (R104). -/
def execSetCalibrationEnabled (enable : Bool) (s : State) : Outcome :=
  s.guarded <|
    if enable = s.calEn then s.finish
    else ((s.transmit .toggleCorrection s.snapshot).setCalEn enable).finish

/-- A reserved selector: no effect, `IllegalRequest` (R73a), in every `INIT_STATE`, entry 13. -/
def execReserved (_ : BitVec 3) (s : State) : Outcome := s.fail .illegalRequest

end Sys2Proof.Machine
end

