-- ==== Sys2Proof/Machine/Dispatch.lean ====
section
/-! DEFINITION. `exec`: one arm per instruction, each one call of its meaning. -/

namespace Sys2Proof.Machine

def exec (i : Instr) (s : State) : Host.Outcome State Fault Refusal :=
  match i with
  -- the host operations (spec/30_encoding.md R70)
  | .hostInit => Sys2Proof.Machine.execHostInit s
  | .setAnodeVoltage volts => Sys2Proof.Machine.execSetAnodeVoltage volts s
  | .setAll value => Sys2Proof.Machine.execSetAll value s
  | .setSymbol symbol value => Sys2Proof.Machine.execSetSymbol symbol value s
  | .renderDigit char digit value => Sys2Proof.Machine.execRenderDigit char digit value s
  | .commitFrame => Sys2Proof.Machine.execCommitFrame s
  | .setCalibration persist values => Sys2Proof.Machine.execSetCalibration persist values s
  | .setCalibrationEnabled enable => Sys2Proof.Machine.execSetCalibrationEnabled enable s
  -- the wire commands (spec/43_serializer.md R119 to R124)
  | .updatePwm => Sys2Proof.Machine.execUpdatePwm s
  | .toggleCorrection => Sys2Proof.Machine.execToggleCorrection s
  | .updateCorrection => Sys2Proof.Machine.execUpdateCorrection s
  | .enablePwm => Sys2Proof.Machine.execEnablePwm s
  | .disablePwm => Sys2Proof.Machine.execDisablePwm s
  | .togglePhaseShift => Sys2Proof.Machine.execTogglePhaseShift s
  -- the reserved selectors (spec/30_encoding.md R73)
  | .reserved sel => Sys2Proof.Machine.execReserved sel s

end Sys2Proof.Machine
end

