-- ==== Sys2Proof/Machine/Step.lean ====
section
/-! DEFINITION. One step: the block takes the host's next request and performs it to completion (spec/00_scope.md R11,
spec/20_memory.md R47 and R52, spec/70_reset_and_hazards.md R186). -/

namespace Sys2Proof.Machine

/-- One step. With no request pending the block idles (R186), entry 10. -/
def step (s : State) : Host.Outcome State Fault Refusal :=
  match s.requests with
  | [] => .next s
  | r :: rest =>
    match decode s.cfg r with
    | .ok i => exec i { s with requests := rest }
    | .error why => .refused (.undecodable why)

/-- The state with the instruction of an opcode-table row as the host's next request (entries 10, 34). -/
def State.withFetchWord (s : State) (nbits w : Nat) : State :=
  { s with requests := tableRequest s.cfg nbits w :: s.requests }

end Sys2Proof.Machine
end

