-- ==== Sys2Proof/Safety.lean ====
section
/-! DEFINITION. What the claims call a good state: the block's invariants (spec/10_state.md R20, R21, R24, R33, R34;
spec/44_controller.md R132) and the canonical form of the store. -/

namespace Sys2Proof.Machine

/-- The block accepts operations (R136). -/
abbrev State.Ready (s : State) : Prop := s.initState = .pwmEnabled

/-- `FB` and `CAL` have their `SYMBOL_COUNT` registers (R20, R21). -/
abbrev State.Sized (s : State) : Prop := s.fb.length = s.cfg.symbolCount ∧ s.cal.length = s.cfg.symbolCount

/-- The lines between transmissions (R24). -/
abbrev State.BusIdle (s : State) : Prop := s.data = false ∧ s.clk = false ∧ s.latch = false

/-- The two init states the host can observe (R132). -/
abbrev State.Settled (s : State) : Prop := s.initState = .unreset ∨ s.initState = .pwmEnabled

/-- A chip's registers have their lengths (R66). -/
abbrev Chip.Sized (c : Config) (chip : Chip) : Prop :=
  chip.shift.length = c.chipBits ∧ chip.outReg.length = c.chipBits ∧ chip.duty.length = c.bank ∧ chip.corr.length = c.bank

/-- Both chips' registers have their lengths. -/
abbrev State.ChipsSized (s : State) : Prop := s.chips.chip1.Sized s.cfg ∧ s.chips.chip2.Sized s.cfg

/-- The invariant every step keeps. -/
abbrev State.Inv (s : State) : Prop :=
  s.Sized ∧ s.BusIdle ∧ s.Settled ∧ s.ChipsSized ∧ Memory.wf s.ps = true

/-- The mirror invariant over `OUT` (R34): once the block is ready, `CAL_EN` is the parity of the toggle-correction
transmissions after the one the latest reset sequence sent; between operations no half frame is clocked in. -/
abbrev State.MirrorsOut (s : State) : Prop :=
  (monitor s.cfg s.out).bits = [] ∧ (monitor s.cfg s.out).beforeHold ≤ (monitor s.cfg s.out).sent.length ∧
    (s.Ready → 1 ≤ (monitor s.cfg s.out).toggles s.cfg ∧
      s.calEn = decide (((monitor s.cfg s.out).toggles s.cfg - 1) % 2 = 1))

/-- The mirror invariant at the chips (R34, R175): once the block is ready, both chips' correction is as `CAL_EN` says. -/
abbrev State.MirrorsChips (s : State) : Prop :=
  s.Ready → s.chips.chip1.correction = s.calEn ∧ s.chips.chip2.correction = s.calEn

/-- The instruction is an operation of the produced interface (R75), not a bare wire command. -/
def isHostOperation : Instr → Bool
  | .hostInit => true
  | .setAnodeVoltage _ => true
  | .setAll _ => true
  | .setSymbol _ _ => true
  | .renderDigit _ _ _ => true
  | .commitFrame => true
  | .setCalibration _ _ => true
  | .setCalibrationEnabled _ => true
  | .reserved _ => true
  | .updatePwm => false
  | .toggleCorrection => false
  | .updateCorrection => false
  | .enablePwm => false
  | .disablePwm => false
  | .togglePhaseShift => false

end Sys2Proof.Machine
end

