-- ==== Sys2Proof/Certificates/Slice0/Obligations.lean ====
section
/-! DEFINITION. The statements for the provers. Each docstring names the rules of spec/ it formalises and the log entries
(notes/assumptions/<n>.md) or decisions (D<n>) of the clauses that are the model's or the spec's own choice. -/

open Sys2Proof Sys2Proof.Machine

/-! ### Encodings -/

/-- Decoding an encoded instruction gives it back, under every configuration (R69, R70, R63; the request word is the
spec's own choice, D2, D3). -/
def Obligations.DecodeOfEncode : Prop :=
  ∀ (c : Config) (i : Instr), decode c (encode c i) = .ok i

/-- The selector table of R70 with the fields of R69, bits not used by an operation ignored, and a payload only after
`OP = 6` (R70, R71, R73; D2, D3; entry 14 for the rejected payload). -/
def Obligations.SelectorTableDecode : Prop :=
  ∀ (w : ReqWord) (p : List Byte),
    ((w.extractLsb' 36 4).toNat = 0 → decodeWord w [] = .ok .hostInit) ∧
    ((w.extractLsb' 36 4).toNat = 1 → decodeWord w [] = .ok (.setAnodeVoltage (w.extractLsb' 0 16))) ∧
    ((w.extractLsb' 36 4).toNat = 2 → decodeWord w [] = .ok (.setAll (w.extractLsb' 0 16))) ∧
    ((w.extractLsb' 36 4).toNat = 3 →
      decodeWord w [] = .ok (.setSymbol (w.extractLsb' 16 8) (w.extractLsb' 0 16))) ∧
    ((w.extractLsb' 36 4).toNat = 4 →
      decodeWord w [] = .ok (.renderDigit (w.extractLsb' 24 8) (w.extractLsb' 16 8) (w.extractLsb' 0 16))) ∧
    ((w.extractLsb' 36 4).toNat = 5 → decodeWord w [] = .ok .commitFrame) ∧
    ((w.extractLsb' 36 4).toNat = 6 → decodeWord w p = .ok (.setCalibration (w.getLsbD 35) p)) ∧
    ((w.extractLsb' 36 4).toNat = 7 → decodeWord w [] = .ok (.setCalibrationEnabled (w.getLsbD 35))) ∧
    (8 ≤ (w.extractLsb' 36 4).toNat → decodeWord w [] = .ok (.reserved (w.extractLsb' 36 3))) ∧
    ((w.extractLsb' 36 4).toNat ≠ 6 → p ≠ [] → decodeWord w p = .error .unexpectedPayload)

/-- Request words written out in spec/95_test_vectors.md section 3.7 decode to the calls they stand for (D2, D3). -/
def Obligations.WrittenRequestWordsDecode : Prop :=
  decodeWord 0x0000000000 [] = .ok .hostInit ∧
  decodeWord 0x100000000C [] = .ok (.setAnodeVoltage 12) ∧
  decodeWord 0x2000001000 [] = .ok (.setAll 4096) ∧
  decodeWord 0x3000541388 [] = .ok (.setSymbol 84 5000) ∧
  decodeWord 0x4037010123 [] = .ok (.renderDigit 0x37 1 0x123) ∧
  decodeWord 0x5FFFFFFFFF [] = .ok .commitFrame ∧
  decodeWord 0x6800000000 [0x3F, 0x01, 0x00] = .ok (.setCalibration true [0x3F, 0x01, 0x00]) ∧
  decodeWord 0x7800000000 [] = .ok (.setCalibrationEnabled true) ∧
  decodeWord 0xF8FFFFFFFF [] = .ok (.reserved 7)

/-- A wire command is recognised by its code and no other 8-bit value is one (R63, R10; distinctness D7; entry 11). -/
def Obligations.WireCodesDecode : Prop :=
  ∀ (c : Config),
    (∀ w : WireCommand, decode c (.wire (c.code w)) = .ok w.instr) ∧
    (∀ code : Byte, (∀ w : WireCommand, code ≠ c.code w) → decode c (.wire code) = .error .unknownWireCode)

/-- The result codes of R72 (D5). -/
def Obligations.ResultCodesFollowTheTable : Prop :=
  Result.code .ok = 0 ∧ Result.code (.err .outOfRange) = 1 ∧ Result.code (.err .invalidIndex) = 2 ∧
  Result.code (.err .unsupportedProduct) = 3 ∧ Result.code (.err .persistenceFailure) = 4 ∧
  Result.code (.err .illegalRequest) = 7

/-! ### The step and the acceptance rule -/

/-- A step takes the next request and runs the instruction it decodes to; an item that is no instruction is refused
(R11, R52, R186; entries 10, 11, 14). -/
def Obligations.StepRunsTheDecodedRequest : Prop :=
  ∀ (s : State) (r : Request) (rest : List Request), s.requests = r :: rest →
    (∀ i, decode s.cfg r = .ok i → step s = exec i { s with requests := rest }) ∧
    (∀ why, decode s.cfg r = .error why → step s = .refused (.undecodable why))

/-- With no request pending a step changes nothing: the model's choice (entry 10, R186). -/
def Obligations.IdleStepChangesNothing : Prop :=
  ∀ s : State, s.requests = [] → step s = .next s

/-- Before `initialize` has returned every other operation is refused (R136, D15). -/
def Obligations.OperationsBeforeInitializeRefused : Prop :=
  ∀ (s : State), ¬ s.Ready →
    (∀ v, exec (.setAnodeVoltage v) s = .refused .notInitialized) ∧
    (∀ v, exec (.setAll v) s = .refused .notInitialized) ∧
    (∀ k v, exec (.setSymbol k v) s = .refused .notInitialized) ∧
    (∀ ch d v, exec (.renderDigit ch d v) s = .refused .notInitialized) ∧
    exec .commitFrame s = .refused .notInitialized ∧
    (∀ p vs, exec (.setCalibration p vs) s = .refused .notInitialized) ∧
    (∀ e, exec (.setCalibrationEnabled e) s = .refused .notInitialized)

/-- A reserved selector completes with `IllegalRequest` and changes nothing else, whatever `INIT_STATE` is (R73a, D3;
entry 13). -/
def Obligations.ReservedSelectorChangesNothing : Prop :=
  ∀ (sel : BitVec 3) (s : State),
    exec (.reserved sel) s = .next { s with results := s.results ++ [.err .illegalRequest] }

/-- Every host operation that answers returns exactly one result, a wire command none (R72, R156, R110). -/
def Obligations.OneResultPerOperation : Prop :=
  ∀ (i : Instr) (s t : State), exec i s = .next t →
    if isHostOperation i then ∃ r, t.results = s.results ++ [r] else t.results = s.results

/-! ### Frame buffer -/

/-- `setAll` (R90). -/
def Obligations.SetAllEffect : Prop :=
  ∀ (s : State) (v : Operand), s.Ready →
    (v.toNat ≤ 4095 →
      exec (.setAll v) s =
        .next { s with fb := List.replicate s.cfg.symbolCount (v.setWidth 12), results := s.results ++ [.ok] }) ∧
    (4095 < v.toNat → exec (.setAll v) s = .next { s with results := s.results ++ [.err .outOfRange] })

/-- `setSymbol` (R91); when both checks fail the result is `OutOfRange` (D14). -/
def Obligations.SetSymbolEffect : Prop :=
  ∀ (s : State) (k : Byte) (v : Operand), s.Ready →
    (v.toNat ≤ 4095 → k.toNat < s.cfg.symbolCount →
      exec (.setSymbol k v) s =
        .next { s with fb := s.fb.set k.toNat (v.setWidth 12), results := s.results ++ [.ok] }) ∧
    (4095 < v.toNat → exec (.setSymbol k v) s = .next { s with results := s.results ++ [.err .outOfRange] }) ∧
    (v.toNat ≤ 4095 → s.cfg.symbolCount ≤ k.toNat →
      exec (.setSymbol k v) s = .next { s with results := s.results ++ [.err .invalidIndex] })

/-- The readback law of R91 (E1): the symbol reads back the value and every other symbol keeps its own. -/
def Obligations.SetSymbolReadsBack : Prop :=
  ∀ (s : State) (k : Byte) (v : Operand), s.Ready → s.Sized → v.toNat ≤ 4095 → k.toNat < s.cfg.symbolCount →
    ∃ t, exec (.setSymbol k v) s = .next t ∧
      (∃ x, t.fb[k.toNat]? = some x ∧ x.toNat = v.toNat) ∧ (∀ j, j ≠ k.toNat → t.fb[j]? = s.fb[j]?)

/-- `renderDigit` writes the digit's connected slots, lit ones with the value and dark ones with 0, the later of two slots
that share a symbol standing; every other symbol and all other state keep their values (R92; D13, D21). -/
def Obligations.RenderDigitSetsSevenSegments : Prop :=
  ∀ (s : State) (ch d : Byte) (v : Operand), s.Ready → s.Sized → d.toNat < s.cfg.digitCount → v.toNat ≤ 4095 →
    ∃ t, exec (.renderDigit ch d v) s = .next t ∧
      t = { s with fb := t.fb, results := s.results ++ [.ok] } ∧
      (∀ i j, i < 7 → segmentSymbol s.cfg d.toNat i = some j →
        (∀ i', i < i' → i' < 7 → segmentSymbol s.cfg d.toNat i' ≠ some j) →
        t.fb[j]? = some (if lit s.cfg ch i then v.setWidth 12 else 0)) ∧
      (∀ j, (∀ i, i < 7 → segmentSymbol s.cfg d.toNat i ≠ some j) → t.fb[j]? = s.fb[j]?)

/-- The errors of `renderDigit` and their order; none of them writes anything (R92, R157; D12, D14). -/
def Obligations.RenderDigitErrorsInOrder : Prop :=
  ∀ (s : State) (ch d : Byte) (v : Operand), s.Ready →
    (s.cfg.digitCount = 0 →
      exec (.renderDigit ch d v) s = .next { s with results := s.results ++ [.err .unsupportedProduct] }) ∧
    (0 < s.cfg.digitCount → s.cfg.digitCount ≤ d.toNat →
      exec (.renderDigit ch d v) s = .next { s with results := s.results ++ [.err .invalidIndex] }) ∧
    (d.toNat < s.cfg.digitCount → 4095 < v.toNat →
      exec (.renderDigit ch d v) s = .next { s with results := s.results ++ [.err .outOfRange] })

/-- `'8'` sets all connected segments of the digit to the value, space and control characters set them to 0 (R84, R92,
E6; ASCII codes PRESUMED, entry 28). -/
def Obligations.GlyphEightLightsAndSpaceBlanks : Prop :=
  ∀ (s : State) (ch d : Byte) (v : Operand), s.Ready → s.Sized → d.toNat < s.cfg.digitCount → v.toNat ≤ 4095 →
    (ch = 0x38 → ∃ t, exec (.renderDigit ch d v) s = .next t ∧
      ∀ i j, i < 7 → segmentSymbol s.cfg d.toNat i = some j → t.fb[j]? = some (v.setWidth 12)) ∧
    (ch = 0x20 ∨ ch = 0x7F ∨ ch.toNat < 0x20 → ∃ t, exec (.renderDigit ch d v) s = .next t ∧
      ∀ i j, i < 7 → segmentSymbol s.cfg d.toNat i = some j → t.fb[j]? = some 0)

/-- Frame operations append no event, move no line and change no state but `FB` (R94); the result goes to the caller. -/
def Obligations.FrameOperationsAreInMemoryOnly : Prop :=
  ∀ (s t : State) (ch k : Byte) (v : Operand),
    exec (.setAll v) s = .next t ∨ exec (.setSymbol k v) s = .next t ∨ exec (.renderDigit ch k v) s = .next t →
      t = { s with fb := t.fb, results := t.results }

/-! ### Tables -/

/-- Table lookups give existing symbols only (R45, R80, R81; the well-formedness is D24). -/
def Obligations.TableLookupsInRange : Prop :=
  ∀ (c : Config),
    (∀ ch i, symbolForChannel c ch = some i → i < c.symbolCount) ∧
    (∀ d k i, segmentSymbol c d k = some i → i < c.symbolCount)

/-- A channel sends its symbol's value and an unconnected channel sends 0; a transmission depends on the values of the
connected symbols only (R111). -/
def Obligations.ChannelValueFromItsSymbol : Prop :=
  ∀ (c : Config) (values : List Drive),
    (∀ ch i, symbolForChannel c ch = some i → channelValue c values ch = values.getD i 0) ∧
    (∀ ch, symbolForChannel c ch = none → channelValue c values ch = 0) ∧
    (∀ (values' : List Drive) (cmd : Byte),
      (∀ ch i, ch < c.channelCount → symbolForChannel c ch = some i → values.getD i 0 = values'.getD i 0) →
      transmission c cmd (channelValue c values) = transmission c cmd (channelValue c values'))

/-! ### The serializer -/

/-- A field goes out bit by bit, most significant first, one pulse a bit (R112). -/
def Obligations.FieldsGoOutMostSignificantFirst : Prop :=
  (∀ v : Drive, emitField v =
    pulse (v.getLsbD 11) ++ pulse (v.getLsbD 10) ++ pulse (v.getLsbD 9) ++ pulse (v.getLsbD 8) ++
    pulse (v.getLsbD 7) ++ pulse (v.getLsbD 6) ++ pulse (v.getLsbD 5) ++ pulse (v.getLsbD 4) ++
    pulse (v.getLsbD 3) ++ pulse (v.getLsbD 2) ++ pulse (v.getLsbD 1) ++ pulse (v.getLsbD 0)) ∧
  (∀ k : Byte, emitField k =
    pulse (k.getLsbD 7) ++ pulse (k.getLsbD 6) ++ pulse (k.getLsbD 5) ++ pulse (k.getLsbD 4) ++
    pulse (k.getLsbD 3) ++ pulse (k.getLsbD 2) ++ pulse (k.getLsbD 1) ++ pulse (k.getLsbD 0)) ∧
  (∀ b : Bool, pulse b = [.level .data b, .level .clk true, .level .clk false])

/-- What `transmit` appends to `OUT`, step by step (R113). -/
def Obligations.TransmitFollowsTheFixedAlgorithm : Prop :=
  ∀ (s : State) (w : WireCommand) (values : List Drive),
    (s.transmit w values).out = s.out ++
      (((List.range (s.cfg.channelCount / 2)).map fun k => s.cfg.channelCount - 1 - k).flatMap fun ch =>
        emitField (channelValue s.cfg values ch)) ++
      emitField (s.cfg.code w) ++
      (((List.range (s.cfg.channelCount / 2)).map fun k => s.cfg.channelCount / 2 - 1 - k).flatMap fun ch =>
        emitField (channelValue s.cfg values ch)) ++
      emitField (s.cfg.code w) ++
      [.level .data false, .level .latch true, .level .latch false]

/-- The content of every bit time of a frame, as a receiver samples it, and where each channel's bits stand (R61). -/
def Obligations.FrameLayoutBitByBit : Prop :=
  ∀ (c : Config) (cmd : Byte) (value : Nat → Drive) (level : Bool) (t : Nat),
    (t < 12 * c.bank →
      (sampled level (transmission c cmd value))[t]? =
        some ((value (c.channelCount - 1 - t / 12)).getLsbD (11 - t % 12))) ∧
    (12 * c.bank ≤ t → t < 12 * c.bank + 8 →
      (sampled level (transmission c cmd value))[t]? = some (cmd.getLsbD (7 - (t - 12 * c.bank)))) ∧
    (12 * c.bank + 8 ≤ t → t < 24 * c.bank + 8 →
      (sampled level (transmission c cmd value))[t]? =
        some ((value (c.bank - 1 - (t - (12 * c.bank + 8)) / 12)).getLsbD (11 - (t - (12 * c.bank + 8)) % 12))) ∧
    (24 * c.bank + 8 ≤ t → t < 24 * c.bank + 16 →
      (sampled level (transmission c cmd value))[t]? = some (cmd.getLsbD (7 - (t - (24 * c.bank + 8))))) ∧
    (24 * c.bank + 16 ≤ t → (sampled level (transmission c cmd value))[t]? = none) ∧
    (∀ ch k, k < 12 → c.bank ≤ ch → ch < c.channelCount →
      (sampled level (transmission c cmd value))[12 * (c.channelCount - 1 - ch) + k]? =
        some ((value ch).getLsbD (11 - k))) ∧
    (∀ ch k, k < 12 → ch < c.bank →
      (sampled level (transmission c cmd value))[12 * c.bank + 8 + 12 * (c.bank - 1 - ch) + k]? =
        some ((value ch).getLsbD (11 - k)))

/-- A receiver reads back every channel's value and both commands (R66). -/
def Obligations.ReceiverReadsBackTheFrame : Prop :=
  ∀ (c : Config) (cmd : Byte) (value : Nat → Drive) (level : Bool),
    (∀ j, j < c.bank →
      (bankValues c ((sampled level (transmission c cmd value)).take c.chipBits))[j]? = some (value (c.bank + j)) ∧
      (bankValues c ((sampled level (transmission c cmd value)).drop c.chipBits))[j]? = some (value j)) ∧
    bankCommand c ((sampled level (transmission c cmd value)).take c.chipBits) = cmd ∧
    bankCommand c ((sampled level (transmission c cmd value)).drop c.chipBits) = cmd

/-- The counts of R115. -/
def Obligations.TransmissionCounts : Prop :=
  ∀ (c : Config) (cmd : Byte) (value : Nat → Drive),
    (∃ bits : List Bool, bits.length = 12 * c.channelCount + 16 ∧
      transmission c cmd value =
        bits.flatMap pulse ++ [.level .data false] ++ [.level .latch true, .level .latch false]) ∧
    (transmission c cmd value).length = 3 * (12 * c.channelCount + 16) + 3 ∧
    (transmission c cmd value).countP (fun e => decide (e = .level .clk true)) = 12 * c.channelCount + 16 ∧
    (transmission c cmd value).countP (fun e => decide (e = .level .latch true)) = 1 ∧
    (c.channelCount = 96 →
      (transmission c cmd value).countP (fun e => decide (e = .level .clk true)) = 1168 ∧
      (transmission c cmd value).length = 3507)

/-- The order the chips rely on: data before the rising clock, the falling clock before the next data level, data low
before the latch rises, the latch falls last (R54). -/
def Obligations.LineOrderWithinATransmission : Prop :=
  ∀ (c : Config) (cmd : Byte) (value : Nat → Drive),
    (∀ pre post v, transmission c cmd value = pre ++ .level .data v :: post →
      pre = [] ∨ ∃ pre', pre = pre' ++ [.level .clk false]) ∧
    (∀ pre post, transmission c cmd value = pre ++ .level .clk true :: post →
      (∃ pre' v, pre = pre' ++ [.level .data v]) ∧ ∃ post', post = .level .clk false :: post') ∧
    (∀ pre post, transmission c cmd value = pre ++ .level .latch true :: post →
      (∃ pre', pre = pre' ++ [.level .data false]) ∧ post = [.level .latch false])

/-- Every rising clock of a transmission is a real edge, and the lines end low (R114). -/
def Obligations.ClockEdgesAreRealAndLinesEndLow : Prop :=
  ∀ (s : State) (w : WireCommand) (values : List Drive), s.clk = false →
    (∀ pre post, transmission s.cfg (s.cfg.code w) (channelValue s.cfg values) = pre ++ .level .clk true :: post →
      levelAfter .clk s.clk pre = false) ∧
    (s.transmit w values).BusIdle

/-- The position machine of R25, started at `(Bank2Data, CHANNEL_COUNT-1, 11)`, emits exactly the transmission of R113 and
then has ended. The model keeps the position outside State, as R25 allows (entry 26). -/
def Obligations.PositionMachineEmitsTheTransmission : Prop :=
  ∀ (c : Config) (cmd : Byte) (value : Nat → Drive) (extra : Nat),
    Position.run c cmd value (12 * c.channelCount + 16 + 3 + extra) (some (Position.start c)) = transmission c cmd value

/-! ### Calibration -/

/-- The calibration-value encoding (R67) and its use (R100). -/
def Obligations.CalibrationExpansion : Prop :=
  (∀ v : CalVal, (expand v).toNat = 64 * v.toNat ∧
    (∀ k, k < 6 → (expand v).getLsbD k = false ∧ (expand v).getLsbD (k + 6) = v.getLsbD k)) ∧
  expand 63 = 0xFC0 ∧
  ∀ s : State, s.expandAll.length = s.cal.length ∧
    (∀ (i : Nat) (v : CalVal), s.cal[i]? = some v → s.expandAll[i]? = some ((v.setWidth 12 : Drive) <<< 6)) ∧
    (s.transmit .updateCorrection s.expandAll).out =
      s.out ++ transmission s.cfg s.cfg.cmdUpdateCorrection (channelValue s.cfg s.expandAll)

/-- `setCalibration` of a valid array: `CAL` takes it, `PS` is accessed only if `persist`, then one update-correction
transmission of the expanded array; a failed write only changes the result (R101, R55, R154; the order is D25, the image
layout D9; the chips are the model's, entries 17 to 21). -/
def Obligations.SetCalibrationEffect : Prop :=
  ∀ (s : State) (persist : Bool) (values : List Byte), s.Ready → values.length = s.cfg.symbolCount →
    (∀ v ∈ values, v.toNat ≤ 63) →
    ∃ t, exec (.setCalibration persist values) s = .next t ∧
      t = { s with
        cal := values.map (BitVec.setWidth 6)
        out := s.out ++ (if persist then [.nvWrite s.cfg.calAddr values] else []) ++
          transmission s.cfg s.cfg.cmdUpdateCorrection
            (channelValue s.cfg (values.map fun v : Byte => (v.setWidth 12 : Drive) <<< 6))
        data := false
        clk := false
        latch := false
        results := s.results ++ [if persist && !s.storeOk then .err .persistenceFailure else .ok]
        ps := t.ps
        chips := t.chips
        storeDraws := if persist then s.storeDraws.tail else s.storeDraws
        draws := t.draws } ∧
      (persist = false → t.ps = s.ps)

/-- The store after a persisting `setCalibration`: a successful write replaces the image and nothing else; a failed one
leaves any bytes in the image and nothing changed outside (R101, R43, R29; U6; D9). -/
def Obligations.SetCalibrationWritesTheImage : Prop :=
  ∀ (s t : State) (values : List Byte), s.Ready → Memory.wf s.ps = true → values.length = s.cfg.symbolCount →
    (∀ v ∈ values, v.toNat ≤ 63) → exec (.setCalibration true values) s = .next t →
    (∀ a, a < s.cfg.calAddr ∨ s.cfg.calAddr + s.cfg.symbolCount ≤ a → Memory.read t.ps a = Memory.read s.ps a) ∧
    (s.storeOk = true → ∀ i v, values[i]? = some v → Memory.read t.ps (s.cfg.calAddr + i) = v)

/-- The range check examines every entry: for any entry above 63 the operation fails with `OutOfRange` and no transmission
and no other effect occurs (R102). -/
def Obligations.SetCalibrationChecksEveryEntry : Prop :=
  ∀ (s : State) (persist : Bool) (values : List Byte), s.Ready → values.length = s.cfg.symbolCount →
    (∃ v ∈ values, 63 < v.toNat) →
    exec (.setCalibration persist values) s = .next { s with results := s.results ++ [.err .outOfRange] }

/-- A payload that is not `SYMBOL_COUNT` entries long cannot be expressed (R71); presented all the same, it is refused: the
model's choice (entry 14). -/
def Obligations.WrongPayloadLengthRefused : Prop :=
  ∀ (s : State) (persist : Bool) (values : List Byte), s.Ready → values.length ≠ s.cfg.symbolCount →
    exec (.setCalibration persist values) s = .refused .payloadLength

/-- The persistence round trip (R29, R103, E7): values written with `persist` and reloaded after a power cycle are the same
array, however the two accesses were settled, whenever both returned `Ok` (the layout is D9, the outcomes entry 7). -/
def Obligations.CalibrationRoundTrip : Prop :=
  ∀ (s t : State) (values : List Byte), s.Ready → Memory.wf s.ps = true → values.length = s.cfg.symbolCount →
    (∀ v ∈ values, v.toNat ≤ 63) → exec (.setCalibration true values) s = .next t → t.results = s.results ++ [.ok] →
    ∃ u, exec .hostInit t.powerCycle = .next u ∧ (u.results = [.ok] → u.cal = values.map (BitVec.setWidth 6)) ∧
      (∀ rest, t.storeDraws = true :: rest → u.results = [.ok])

/-- `setCalibrationEnabled`: one toggle-correction transmission and the flag when they differ, nothing when they agree
(R104; the data slots carry `FB`, D8, entry 15; the chips are the model's). -/
def Obligations.CalibrationEnableEffect : Prop :=
  ∀ (s : State) (enable : Bool), s.Ready →
    (enable = s.calEn → exec (.setCalibrationEnabled enable) s = .next { s with results := s.results ++ [.ok] }) ∧
    (enable ≠ s.calEn → ∃ t, exec (.setCalibrationEnabled enable) s = .next t ∧
      t = { s with
        calEn := enable
        out := s.out ++ transmission s.cfg s.cfg.cmdToggleCorrection (channelValue s.cfg s.fb)
        data := false
        clk := false
        latch := false
        results := s.results ++ [.ok]
        chips := t.chips
        draws := t.draws })

/-- Enabling twice in a row sends one toggle transmission, not two (R104, E3; data slots D8). -/
def Obligations.EnablingTwiceTogglesOnce : Prop :=
  ∀ (s : State), s.Ready → s.calEn = false →
    ∃ t u, exec (.setCalibrationEnabled true) s = .next t ∧ exec (.setCalibrationEnabled true) t = .next u ∧
      t.calEn = true ∧ u.calEn = true ∧
      t.out = s.out ++ transmission s.cfg s.cfg.cmdToggleCorrection (channelValue s.cfg s.fb) ∧ u.out = t.out

/-! ### Controller -/

/-- `commitFrame`: one update-PWM transmission of the `FB` snapshot, `FB` and all other state of the block unchanged
(R134; the chips are the model's, entries 17 to 21). -/
def Obligations.CommitFrameSendsTheSnapshot : Prop :=
  ∀ (s : State), s.Ready →
    ∃ t, exec .commitFrame s = .next t ∧
      t = { s with
        out := s.out ++ transmission s.cfg s.cfg.cmdUpdatePwm (channelValue s.cfg s.fb)
        data := false
        clk := false
        latch := false
        results := s.results ++ [.ok]
        chips := t.chips
        draws := t.draws }

/-- The source's scenario (E8): blank, set one symbol, commit: the stream shows the value on the channels of that symbol
and 0 everywhere else (R90, R91, R134, R111). -/
def Obligations.BlankSetOneCommitShowsOneSymbol : Prop :=
  ∀ (s : State) (k : Byte) (v : Operand), s.Ready → v.toNat ≤ 4095 → k.toNat < s.cfg.symbolCount →
    ∃ t u w, exec (.setAll 0) s = .next t ∧ exec (.setSymbol k v) t = .next u ∧ exec .commitFrame u = .next w ∧
      w.out = s.out ++ transmission s.cfg s.cfg.cmdUpdatePwm
        (fun ch => if symbolForChannel s.cfg ch = some k.toNat then v.setWidth 12 else 0)

/-- `setAnodeVoltage` (R133; the unit of `volts` is D19, the exact product entry 23). -/
def Obligations.SetAnodeVoltageEffect : Prop :=
  ∀ (s : State) (v : Operand), s.Ready →
    (v.toNat ≤ s.cfg.maxVoltage →
      exec (.setAnodeVoltage v) s =
        .next { s with
          anode := { s.anode with duty := v.toNat * s.cfg.voltScale }
          out := s.out ++ [.pwm .anode (.duty (v.toNat * s.cfg.voltScale))]
          results := s.results ++ [.ok] }) ∧
    (s.cfg.maxVoltage < v.toNat →
      exec (.setAnodeVoltage v) s = .next { s with results := s.results ++ [.err .outOfRange] })

/-- `initialize`, in every `INIT_STATE`: the whole event list and the state it leaves (R130, R131, R103, R171; the result
and the failed load are D11 and D26, the second call D16, the data slots D8; chips and PWM registers are the model's). -/
def Obligations.InitializeEffect : Prop :=
  ∀ (s : State), ∃ (t : State) (ok : Bool), exec .hostInit s = .next t ∧
    (∀ b rest, s.storeDraws = b :: rest → ok = b) ∧
    t = { s with
      fb := List.replicate s.cfg.symbolCount 0
      cal := t.cal
      calEn := false
      initState := .pwmEnabled
      data := false
      clk := false
      latch := false
      out := s.out ++
        [.pwm .anode (.setup s.cfg.pwmAnode), .pwm .chipClk (.setup s.cfg.pwmChipClk), .level .latch true,
          .delay s.cfg.resetHoldMs, .level .latch false] ++
        transmission s.cfg s.cfg.cmdToggleCorrection (fun _ => 0) ++
        transmission s.cfg s.cfg.cmdTogglePhaseShift (fun _ => 0) ++
        transmission s.cfg s.cfg.cmdEnablePwm (fun _ => 0) ++
        [.nvRead s.cfg.calAddr s.cfg.symbolCount] ++
        transmission s.cfg s.cfg.cmdUpdateCorrection (channelValue s.cfg (t.cal.map expand))
      results := s.results ++ [if ok then .ok else .err .persistenceFailure]
      anode := s.cfg.pwmAnode
      chipClk := s.cfg.pwmChipClk
      chips := t.chips
      storeDraws := s.storeDraws.tail
      draws := t.draws } ∧
    t.cal.length = s.cfg.symbolCount ∧
    (ok = true → ∀ i, i < s.cfg.symbolCount → (Memory.read s.ps (s.cfg.calAddr + i)).toNat ≤ 63 →
      t.cal[i]? = some ((Memory.read s.ps (s.cfg.calAddr + i)).setWidth 6))

/-- The event count of `initialize` (R130). -/
def Obligations.InitializeEventCount : Prop :=
  ∀ (s t : State), exec .hostInit s = .next t →
    t.out.length = s.out.length + 6 + 4 * (3 * (12 * s.cfg.channelCount + 16) + 3) ∧
    (s.cfg.channelCount = 96 → t.out.length = s.out.length + 14034)

/-- The transitions of the init state machine and the events of each (R131, R132; D23); the data slots of the three frames
are the `FB` snapshot, whatever `FB` holds (R125; D8, entry 15). -/
def Obligations.InitStateMachineTransitions : Prop :=
  ∀ (s : State),
    (s.toLatched.initState = .latched ∧
      s.toLatched.out = s.out ++ [.level .latch true, .delay s.cfg.resetHoldMs, .level .latch false]) ∧
    (s.toCorrectionDisabled.initState = .correctionDisabled ∧ s.toCorrectionDisabled.calEn = false ∧
      s.toCorrectionDisabled.out =
        s.out ++ transmission s.cfg s.cfg.cmdToggleCorrection (channelValue s.cfg s.fb)) ∧
    (s.toPhaseShiftEnabled.initState = .phaseShiftEnabled ∧
      s.toPhaseShiftEnabled.out =
        s.out ++ transmission s.cfg s.cfg.cmdTogglePhaseShift (channelValue s.cfg s.fb)) ∧
    (s.toPwmEnabled.initState = .pwmEnabled ∧
      s.toPwmEnabled.out = s.out ++ transmission s.cfg s.cfg.cmdEnablePwm (channelValue s.cfg s.fb)) ∧
    s.resetSequence = s.toLatched.toCorrectionDisabled.toPhaseShiftEnabled.toPwmEnabled

/-! ### Wire commands -/

/-- Each bare wire command but disable-PWM is sent, once the block is ready, as one whole frame and changes no flag,
register or result of the block (R118 to R122, R124; data slots R125, D8; that a bare command can be presented is
entry 11). -/
def Obligations.WireCommandsSendWholeFrames : Prop :=
  ∀ (s : State) (i : Instr) (code : Byte) (values : List Drive), s.Ready →
    (i = .updatePwm ∧ code = s.cfg.cmdUpdatePwm ∧ values = s.fb) ∨
    (i = .toggleCorrection ∧ code = s.cfg.cmdToggleCorrection ∧ values = s.fb) ∨
    (i = .updateCorrection ∧ code = s.cfg.cmdUpdateCorrection ∧ values = s.cal.map expand) ∨
    (i = .enablePwm ∧ code = s.cfg.cmdEnablePwm ∧ values = s.fb) ∨
    (i = .togglePhaseShift ∧ code = s.cfg.cmdTogglePhaseShift ∧ values = s.fb) →
    ∃ t, exec i s = .next t ∧
      t = { s with
        out := s.out ++ transmission s.cfg code (channelValue s.cfg values)
        data := false
        clk := false
        latch := false
        chips := t.chips
        draws := t.draws }

/-- Before `initialize` has returned a bare wire command is refused too: nothing else may happen first (R170, R173); that a
bare command is an item at all, and that it is refused then, is the model's choice (entry 11). disable-PWM is refused in
every state (entry 12). -/
def Obligations.WireCommandsBeforeInitializeRefused : Prop :=
  ∀ (s : State), ¬ s.Ready →
    exec .updatePwm s = .refused .notInitialized ∧
    exec .toggleCorrection s = .refused .notInitialized ∧
    exec .updateCorrection s = .refused .notInitialized ∧
    exec .enablePwm s = .refused .notInitialized ∧
    exec .togglePhaseShift s = .refused .notInitialized

/-- disable-PWM has a code of its own and no rule that sends it: whatever instruction runs, no frame it sends carries that
code (R123); that the instruction itself is refused is deduced from this (entry 12). -/
def Obligations.DisablePwmIsNeverSent : Prop :=
  (∀ c : Config, c.code .disablePwm = c.cmdDisablePwm ∧
    ∀ w : WireCommand, w ≠ .disablePwm → c.code .disablePwm ≠ c.code w) ∧
  (∀ s : State, exec .disablePwm s = .refused .disablePwmNeverSent) ∧
  (∀ (i : Instr) (s t : State), exec i s = .next t →
    ∃ evs, t.out = s.out ++ evs ∧
      ∀ p ∈ (Monitor.start.after s.cfg evs).sent, p.1 = p.2 ∧ p.1 ≠ s.cfg.code .disablePwm)

/-- After a bare update-PWM in a ready state (entry 11) the chips hold the frame in their output registers and every
channel's duty is its value; the other chip state stands (R119, R30b, R48; the chips' registers are the model's,
entries 17, 20). -/
def Obligations.UpdatePwmReachesEveryChannel : Prop :=
  ∀ (s : State), s.Ready → ∃ t, exec .updatePwm s = .next t ∧
    (∀ j, j < s.cfg.bank →
      t.chips.chip2.duty[j]? = some (channelValue s.cfg s.fb (s.cfg.bank + j)) ∧
      t.chips.chip1.duty[j]? = some (channelValue s.cfg s.fb j)) ∧
    t.chips.chip2.outReg ++ t.chips.chip1.outReg = frameBits s.cfg s.cfg.cmdUpdatePwm (channelValue s.cfg s.fb) ∧
    (t.chips.chip2.correction = s.chips.chip2.correction ∧ t.chips.chip1.correction = s.chips.chip1.correction) ∧
    (t.chips.chip2.phaseShift = s.chips.chip2.phaseShift ∧ t.chips.chip1.phaseShift = s.chips.chip1.phaseShift) ∧
    (t.chips.chip2.pwm = s.chips.chip2.pwm ∧ t.chips.chip1.pwm = s.chips.chip1.pwm) ∧
    (t.chips.chip2.corr = s.chips.chip2.corr ∧ t.chips.chip1.corr = s.chips.chip1.corr)

/-- What the bare mode commands do at the chips in a ready state (R120, R122, R124, R30e to R30g; entry 11 for the bare
commands, entries 17 to 20 for the chips). That a second toggle-phase-shift flips the state back is an inference R124 marks
as its own. -/
def Obligations.ModeCommandsActAtBothChips : Prop :=
  ∀ (s : State), s.Ready →
    (∃ t, exec .toggleCorrection s = .next t ∧
      t.chips.chip1.correction = !s.chips.chip1.correction ∧ t.chips.chip2.correction = !s.chips.chip2.correction ∧
      t.chips.chip1.phaseShift = s.chips.chip1.phaseShift ∧ t.chips.chip2.phaseShift = s.chips.chip2.phaseShift ∧
      t.chips.chip1.pwm = s.chips.chip1.pwm ∧ t.chips.chip2.pwm = s.chips.chip2.pwm ∧
      t.chips.chip1.corr = s.chips.chip1.corr ∧ t.chips.chip2.corr = s.chips.chip2.corr) ∧
    (∃ t, exec .togglePhaseShift s = .next t ∧
      t.chips.chip1.phaseShift = !s.chips.chip1.phaseShift ∧ t.chips.chip2.phaseShift = !s.chips.chip2.phaseShift ∧
      t.chips.chip1.correction = s.chips.chip1.correction ∧ t.chips.chip2.correction = s.chips.chip2.correction ∧
      t.chips.chip1.pwm = s.chips.chip1.pwm ∧ t.chips.chip2.pwm = s.chips.chip2.pwm ∧
      t.chips.chip1.corr = s.chips.chip1.corr ∧ t.chips.chip2.corr = s.chips.chip2.corr) ∧
    (∃ t, exec .enablePwm s = .next t ∧
      t.chips.chip1.pwm = true ∧ t.chips.chip2.pwm = true ∧
      t.chips.chip1.correction = s.chips.chip1.correction ∧ t.chips.chip2.correction = s.chips.chip2.correction ∧
      t.chips.chip1.phaseShift = s.chips.chip1.phaseShift ∧ t.chips.chip2.phaseShift = s.chips.chip2.phaseShift ∧
      t.chips.chip1.corr = s.chips.chip1.corr ∧ t.chips.chip2.corr = s.chips.chip2.corr)

/-- A bare update-correction in a ready state (entry 11) loads every channel's correction value into its chip and leaves
the duties and the mode bits (R121, R30h; entry 20). -/
def Obligations.UpdateCorrectionReachesEveryChannel : Prop :=
  ∀ (s : State), s.Ready → ∃ t, exec .updateCorrection s = .next t ∧
    (∀ j, j < s.cfg.bank →
      t.chips.chip2.corr[j]? = some (channelValue s.cfg (s.cal.map expand) (s.cfg.bank + j)) ∧
      t.chips.chip1.corr[j]? = some (channelValue s.cfg (s.cal.map expand) j)) ∧
    t.chips.chip2.duty = s.chips.chip2.duty ∧ t.chips.chip1.duty = s.chips.chip1.duty ∧
    t.chips.chip2.correction = s.chips.chip2.correction ∧ t.chips.chip1.correction = s.chips.chip1.correction ∧
    t.chips.chip2.phaseShift = s.chips.chip2.phaseShift ∧ t.chips.chip1.phaseShift = s.chips.chip1.phaseShift ∧
    t.chips.chip2.pwm = s.chips.chip2.pwm ∧ t.chips.chip1.pwm = s.chips.chip1.pwm

/-- Two bare toggle-correction frames in a row, in a ready state (entry 11), restore the chips' correction state (R120, R49;
the chips' registers are the model's, entries 17 to 21). -/
def Obligations.TwoTogglesRestoreCorrection : Prop :=
  ∀ (s : State), s.Ready → ∃ t u, exec .toggleCorrection s = .next t ∧ exec .toggleCorrection t = .next u ∧
    u.chips.chip1.correction = s.chips.chip1.correction ∧ u.chips.chip2.correction = s.chips.chip2.correction

/-- The chips after the first `initialize`: correction off, phase shift on, PWM enabled, all duties 0, correction values
loaded (R171; power-up values entry 17, data-less frames entry 18, the hold entry 19, what a command leaves alone entry 20). -/
def Obligations.ChipsAfterFirstInitialize : Prop :=
  ∀ (c : Config) (ps : List Host.Cell), ∃ t, exec .hostInit (State.powerOn c ps) = .next t ∧
    (t.chips.chip1.correction = false ∧ t.chips.chip2.correction = false) ∧
    (t.chips.chip1.phaseShift = true ∧ t.chips.chip2.phaseShift = true) ∧
    (t.chips.chip1.pwm = true ∧ t.chips.chip2.pwm = true) ∧
    (t.chips.chip1.duty = List.replicate c.bank 0 ∧ t.chips.chip2.duty = List.replicate c.bank 0) ∧
    (∀ j, j < c.bank →
      t.chips.chip2.corr[j]? = some (channelValue c (t.cal.map expand) (c.bank + j)) ∧
      t.chips.chip1.corr[j]? = some (channelValue c (t.cal.map expand) j))

/-! ### Errors and whole-machine rules -/

/-- An operation that returns a validation error has changed nothing and touched nothing (R155). -/
def Obligations.ValidationErrorsChangeNothing : Prop :=
  ∀ (i : Instr) (s t : State) (k : ErrorKind), exec i s = .next t → t.results = s.results ++ [.err k] →
    k = .outOfRange ∨ k = .invalidIndex ∨ k = .unsupportedProduct →
    t = { s with results := s.results ++ [.err k] }

/-- `UnsupportedProduct` is returned by `renderDigit` when `DIGIT_COUNT = 0` and by nothing else (R153). -/
def Obligations.UnsupportedProductOnlyWithoutDigits : Prop :=
  (∀ (s : State) (ch d : Byte) (v : Operand), s.Ready → s.cfg.digitCount = 0 →
    exec (.renderDigit ch d v) s = .next { s with results := s.results ++ [.err .unsupportedProduct] }) ∧
  (∀ (i : Instr) (s t : State), exec i s = .next t → t.results = s.results ++ [.err .unsupportedProduct] →
    s.cfg.digitCount = 0 ∧ ∃ ch d v, i = .renderDigit ch d v)

/-- `PersistenceFailure` comes from a failed store access only: the read of `initialize`, after its reset sequence, or the
write of a persisting `setCalibration`; and it does not undo the calibration registers or the transmission (R154, R55; D11,
D26; the outcome of an access is a draw, entry 7). -/
def Obligations.PersistenceFailureDoesNotAbort : Prop :=
  ∀ (i : Instr) (s t : State), exec i s = .next t → t.results = s.results ++ [.err .persistenceFailure] →
    ((i = .hostInit ∧ s.blankAndProgram.resetSequence.storeOk = false ∧
        ∀ b rest, s.storeDraws = b :: rest → b = false) ∨
      ∃ vs, i = .setCalibration true vs ∧ s.storeOk = false ∧ t.cal = vs.map (BitVec.setWidth 6)) ∧
    ∃ evs, t.out = evs ++ transmission s.cfg s.cfg.cmdUpdateCorrection (channelValue s.cfg (t.cal.map expand))

/-- Which instructions write which state (R20 to R23, R29, R31). -/
def Obligations.WritersOfEachRegister : Prop :=
  ∀ (i : Instr) (s t : State), exec i s = .next t →
    (t.fb ≠ s.fb → i = .hostInit ∨ (∃ v, i = .setAll v) ∨ (∃ k v, i = .setSymbol k v) ∨ ∃ ch d v, i = .renderDigit ch d v) ∧
    (t.cal ≠ s.cal → i = .hostInit ∨ ∃ p vs, i = .setCalibration p vs) ∧
    (t.calEn ≠ s.calEn → i = .hostInit ∨ ∃ e, i = .setCalibrationEnabled e) ∧
    (t.initState ≠ s.initState → i = .hostInit) ∧
    (t.ps ≠ s.ps → ∃ vs, i = .setCalibration true vs) ∧
    (t.anode ≠ s.anode → i = .hostInit ∨ ∃ v, i = .setAnodeVoltage v) ∧
    (t.chipClk ≠ s.chipClk → i = .hostInit)

/-- No operation writes the static tables or any other parameter (R27). -/
def Obligations.NoOperationWritesTheTables : Prop :=
  ∀ (i : Instr) (s t : State), exec i s = .next t →
    t.cfg = s.cfg ∧ (∀ ch, symbolForChannel t.cfg ch = symbolForChannel s.cfg ch) ∧
    (∀ d, segmentSymbols t.cfg d = segmentSymbols s.cfg d) ∧
    (∀ ch, segmentsForCharacter t.cfg ch = segmentsForCharacter s.cfg ch)

/-- `OUT` and the results are only appended to, and the host's pending requests are the host's (R28, R52). -/
def Obligations.OutputIsOnlyAppended : Prop :=
  ∀ (i : Instr) (s t : State), exec i s = .next t →
    (∃ evs, t.out = s.out ++ evs) ∧ (∃ rs, t.results = s.results ++ rs) ∧ t.requests = s.requests

/-! ### Reset and invariants -/

/-- The power-on state (R36, R170; its values are the spec's choice D17, the chips' R36 and entry 17, `FB` and `CAL`
entries 2 and 3), that reset is it with 96 channels and an unlisted store (R5, entries 1, 5), and that a power cycle keeps
the store (R166). -/
def Obligations.PowerOnState : Prop :=
  (∀ (c : Config) (ps : List Host.Cell),
    (State.powerOn c ps).calEn = false ∧ (State.powerOn c ps).initState = .unreset ∧
    (State.powerOn c ps).BusIdle ∧ (State.powerOn c ps).out = [] ∧ (State.powerOn c ps).ps = ps ∧
    (State.powerOn c ps).fb.length = c.symbolCount ∧ (State.powerOn c ps).cal.length = c.symbolCount ∧
    (State.powerOn c ps).chips.chip1.correction = true ∧ (State.powerOn c ps).chips.chip2.correction = true) ∧
  State.reset.cfg.channelCount = 96 ∧ State.reset.ps = [] ∧ State.reset.initState = .unreset ∧
  ∀ s : State, s.powerCycle.ps = s.ps ∧ s.powerCycle.cfg = s.cfg ∧ s.powerCycle.initState = .unreset

/-- Reset meets the invariants. -/
def Obligations.ResetMeetsTheInvariants : Prop :=
  State.reset.Inv ∧ State.reset.MirrorsOut ∧ State.reset.MirrorsChips

/-- Every step keeps the invariant: the register files and the chips' registers keep their sizes, the lines are idle
between operations, `INIT_STATE` is one the host can observe, and the store keeps its canonical form (R20, R21, R24, R33,
R132). -/
def Obligations.StepKeepsTheInvariant : Prop :=
  ∀ (s t : State), s.Inv → step s = .next t → t.Inv

/-- The mirror invariant over `OUT` (R34): every step whose request is a host request keeps it; a bare wire command may
break it (R175, entry 11). -/
def Obligations.StepKeepsTheMirrorOverOut : Prop :=
  ∀ (s t : State), s.MirrorsOut → (∀ code, s.requests.head? ≠ some (.wire code)) → step s = .next t → t.MirrorsOut

/-- The mirror invariant at the chips (R34, R175, R176): every host operation keeps it, `initialize` if the chips are in
their power-up state. That the hold keeps the correction of such chips is entry 19, that the other commands leave it alone
entry 20. -/
def Obligations.OperationsKeepTheMirrorAtTheChips : Prop :=
  ∀ (i : Instr) (s t : State), isHostOperation i = true → s.MirrorsChips →
    (i = .hostInit → s.chips.fresh = true ∧ s.chips.chip1.correction = true ∧ s.chips.chip2.correction = true) →
    exec i s = .next t → t.MirrorsChips
end

