-- ==== Sys2Proof/Laws/Decode.lean ====
section
/-! SUPPORT. The fields of a packed request word (spec/30_encoding.md R69) and the distinct wire codes (R63). -/

namespace Sys2Proof

/-- The selector of a packed word (R69). -/
theorem opField_packWord (op : BitVec 4) (flag : Bool) (chr idx : Byte) (val : Operand) :
    opField (packWord op flag chr idx val) = op := by
  apply BitVec.eq_of_getLsbD_eq
  intro k hk
  have h : ∀ n, n < 4 → ¬ (36 + n < 16) ∧ ¬ (36 + n - 16 < 8) ∧ ¬ (36 + n - 16 - 8 < 8) ∧ ¬ (36 + n - 16 - 8 - 8 < 3) ∧
      ¬ (36 + n - 16 - 8 - 8 - 3 < 1) ∧ 36 + n - 16 - 8 - 8 - 3 - 1 = n := by omega
  obtain ⟨h1, h2, h3, h4, h5, h6⟩ := h k hk
  simp only [opField, packWord, BitVec.getLsbD_extractLsb', BitVec.getLsbD_append, h1, h2, h3, h4, h5, h6, hk,
    decide_true, Bool.true_and, if_false]

/-- The unused bits of a packed word (R69). -/
theorem unused_packWord (op : BitVec 4) (flag : Bool) (chr idx : Byte) (val : Operand) :
    (packWord op flag chr idx val).extractLsb' 32 3 = 0 := by
  apply BitVec.eq_of_getLsbD_eq
  intro k hk
  have h : ∀ n, n < 3 → ¬ (32 + n < 16) ∧ ¬ (32 + n - 16 < 8) ∧ ¬ (32 + n - 16 - 8 < 8) ∧ 32 + n - 16 - 8 - 8 < 3 := by
    omega
  obtain ⟨h1, h2, h3, h4⟩ := h k hk
  simp only [packWord, BitVec.getLsbD_extractLsb', BitVec.getLsbD_append, h1, h2, h3, h4, hk, decide_true,
    Bool.true_and, if_false, if_true]
  simp

/-- The flag of a packed word (R69). -/
theorem flagField_packWord (op : BitVec 4) (flag : Bool) (chr idx : Byte) (val : Operand) :
    flagField (packWord op flag chr idx val) = flag := by
  simp only [flagField, packWord, BitVec.getLsbD_append, show ¬ (35 < 16) by omega, show ¬ (35 - 16 < 8) by omega,
    show ¬ (35 - 16 - 8 < 8) by omega, show ¬ (35 - 16 - 8 - 8 < 3) by omega, show 35 - 16 - 8 - 8 - 3 < 1 by omega,
    if_false, if_true]
  cases flag <;> rfl

/-- The character of a packed word (R69). -/
theorem chrField_packWord (op : BitVec 4) (flag : Bool) (chr idx : Byte) (val : Operand) :
    chrField (packWord op flag chr idx val) = chr := by
  apply BitVec.eq_of_getLsbD_eq
  intro k hk
  have h : ∀ n, n < 8 → ¬ (24 + n < 16) ∧ ¬ (24 + n - 16 < 8) ∧ 24 + n - 16 - 8 = n := by omega
  obtain ⟨h1, h2, h3⟩ := h k hk
  simp only [chrField, packWord, BitVec.getLsbD_extractLsb', BitVec.getLsbD_append, h1, h2, h3, hk, decide_true,
    Bool.true_and, if_false, if_true]

/-- The index of a packed word (R69). -/
theorem idxField_packWord (op : BitVec 4) (flag : Bool) (chr idx : Byte) (val : Operand) :
    idxField (packWord op flag chr idx val) = idx := by
  apply BitVec.eq_of_getLsbD_eq
  intro k hk
  have h : ∀ n, n < 8 → ¬ (16 + n < 16) ∧ 16 + n - 16 = n := by omega
  obtain ⟨h1, h2⟩ := h k hk
  simp only [idxField, packWord, BitVec.getLsbD_extractLsb', BitVec.getLsbD_append, h1, h2, hk, decide_true,
    Bool.true_and, if_false, if_true]

/-- The value of a packed word (R69). -/
theorem valField_packWord (op : BitVec 4) (flag : Bool) (chr idx : Byte) (val : Operand) :
    valField (packWord op flag chr idx val) = val := by
  apply BitVec.eq_of_getLsbD_eq
  intro k hk
  simp only [valField, packWord, BitVec.getLsbD_extractLsb', BitVec.getLsbD_append, hk, decide_true, Bool.true_and,
    if_true, Nat.zero_add]

/-- The six codes are pairwise distinct (R10). -/
theorem codes_nodup (c : Config) : c.codes.Nodup := by
  have h := c.wf
  simp only [Params.wellFormed, Params.codesOk, Bool.and_eq_true, decide_eq_true_eq] at h
  exact h.1.2

/-- A command is recognised by its code (R63). -/
theorem wireOf_code (c : Config) (w : WireCommand) : c.wireOf (c.code w) = some w := by
  have h := codes_nodup c
  simp only [Params.codes, List.nodup_cons, List.mem_cons, List.not_mem_nil, not_or, or_false] at h
  obtain ⟨⟨h1, h2, h3, h4, h5⟩, ⟨h6, h7, h8, h9⟩, ⟨h10, h11, h12⟩, ⟨h13, h14⟩, h15, -⟩ := h
  cases w <;> simp_all [Config.wireOf, Config.code, eq_comm]

end Sys2Proof
end

