-- ==== Sys2Proof/Laws/Memory.lean ====
section
/-! SUPPORT. The persistent store: read after write, and the canonical form that every write keeps (spec/10_state.md R29). -/

namespace Sys2Proof.Machine

theorem Memory.wf_cons {a : Nat} {v : Byte} {rest : List Host.Cell} :
    Memory.wf ((a, v) :: rest) = true ↔ v ≠ 0 ∧ (∀ cell ∈ rest, a < cell.1) ∧ Memory.wf rest = true := by
  simp [Memory.wf, and_assoc]

/-- A byte below every listed address is not listed. -/
theorem Memory.read_eq_zero {m : List Host.Cell} {a : Nat} (h : ∀ cell ∈ m, a < cell.1) : Memory.read m a = 0 := by
  induction m with
  | nil => rfl
  | cons cell rest ih =>
    obtain ⟨b, v⟩ := cell
    have hb : a < b := h (b, v) (by simp)
    rw [Memory.read, if_neg (by omega)]
    exact ih fun c hc => h c (by simp [hc])

/-- Every address in the written list is the written one or was there before. -/
theorem Memory.mem_write {m : List Host.Cell} {a : Nat} {v : Byte} {cell : Host.Cell} (h : cell ∈ Memory.write m a v) :
    cell = (a, v) ∨ cell ∈ m := by
  induction m with
  | nil =>
    unfold Memory.write at h
    split at h <;> simp_all
  | cons head rest ih =>
    obtain ⟨b, x⟩ := head
    unfold Memory.write at h
    split at h
    · split at h
      · exact .inr h
      · simpa using h
    · split at h
      · split at h
        · exact .inr (by simp [h])
        · rcases List.mem_cons.mp h with h | h
          · exact .inl h
          · exact .inr (by simp [h])
      · rcases List.mem_cons.mp h with h | h
        · exact .inr (by simp [h])
        · rcases ih h with h | h
          · exact .inl h
          · exact .inr (by simp [h])

/-- A write keeps the canonical form. -/
theorem Memory.wf_write {m : List Host.Cell} (a : Nat) (v : Byte) (h : Memory.wf m = true) :
    Memory.wf (Memory.write m a v) = true := by
  induction m with
  | nil =>
    rw [Memory.write]
    split
    · rfl
    · next hv => exact Memory.wf_cons.mpr ⟨hv, by simp, rfl⟩
  | cons head rest ih =>
    obtain ⟨b, x⟩ := head
    obtain ⟨hx, hb, hrest⟩ := Memory.wf_cons.mp h
    unfold Memory.write
    split
    · next hlt =>
      split
      · exact h
      · next hv =>
        refine Memory.wf_cons.mpr ⟨hv, fun c hc => ?_, h⟩
        rcases List.mem_cons.mp hc with rfl | hc
        · exact hlt
        · exact hlt.trans (hb c hc)
    · next hlt =>
      split
      · next heq =>
        subst heq
        split
        · exact hrest
        · next hv => exact Memory.wf_cons.mpr ⟨hv, hb, hrest⟩
      · next hne =>
        refine Memory.wf_cons.mpr ⟨hx, fun c hc => ?_, ih hrest⟩
        rcases Memory.mem_write hc with rfl | hc
        · show b < a
          omega
        · exact hb c hc

/-- A read after a write: the byte written, or what stood there before. -/
theorem Memory.read_write {m : List Host.Cell} (a b : Nat) (v : Byte) (h : Memory.wf m = true) :
    Memory.read (Memory.write m a v) b = if b = a then v else Memory.read m b := by
  induction m with
  | nil =>
    rw [Memory.write]
    split
    · next hv => simp [Memory.read, hv]
    · rfl
  | cons head rest ih =>
    obtain ⟨c, x⟩ := head
    obtain ⟨hx, hc, hrest⟩ := Memory.wf_cons.mp h
    unfold Memory.write
    split
    · next hlt =>
      split
      · next hv =>
        by_cases hba : b = a
        · rw [if_pos hba, hba, hv]
          refine Memory.read_eq_zero fun cell hcell => ?_
          rcases List.mem_cons.mp hcell with rfl | hcell
          · exact hlt
          · exact hlt.trans (hc cell hcell)
        · rw [if_neg hba]
      · rw [Memory.read]
    · next hlt =>
      split
      · next heq =>
        subst heq
        split
        · next hv =>
          by_cases hba : b = a
          · rw [if_pos hba, hba, hv]
            exact Memory.read_eq_zero hc
          · rw [if_neg hba, Memory.read, if_neg hba]
        · by_cases hba : b = a
          · rw [if_pos hba, Memory.read, if_pos hba]
          · rw [if_neg hba, Memory.read, if_neg hba, Memory.read, if_neg hba]
      · next hne =>
        rw [Memory.read, ih hrest, Memory.read]
        by_cases hbc : b = c
        · rw [if_pos hbc, if_pos hbc, if_neg (by omega)]
        · rw [if_neg hbc, if_neg hbc]

/-- Writing several bytes keeps the canonical form. -/
theorem Memory.wf_writeBytes {m : List Host.Cell} (a : Nat) (bytes : List Byte) (h : Memory.wf m = true) :
    Memory.wf (Memory.writeBytes m a bytes) = true := by
  induction bytes generalizing m a with
  | nil => exact h
  | cons b rest ih => exact ih (a + 1) (Memory.wf_write a b h)

/-- A read after several bytes are written: the byte of the written range, or what stood there before. -/
theorem Memory.read_writeBytes {m : List Host.Cell} (a : Nat) (bytes : List Byte) (b : Nat) (h : Memory.wf m = true) :
    Memory.read (Memory.writeBytes m a bytes) b =
      if a ≤ b ∧ b < a + bytes.length then bytes.getD (b - a) 0 else Memory.read m b := by
  induction bytes generalizing m a with
  | nil => rw [if_neg (by simp)]; rfl
  | cons x rest ih =>
    rw [Memory.writeBytes, ih (a + 1) (Memory.wf_write a x h), Memory.read_write a b x h]
    by_cases hba : b = a
    · subst hba
      rw [if_neg (by omega), if_pos rfl, if_pos (by simp)]
      simp
    · by_cases hin : a + 1 ≤ b ∧ b < a + 1 + rest.length
      · rw [if_pos hin, if_pos (by simp; omega)]
        obtain ⟨k, hk⟩ : ∃ k, b = a + 1 + k := ⟨b - (a + 1), by omega⟩
        subst hk
        rw [show a + 1 + k - (a + 1) = k by omega, show a + 1 + k - a = k + 1 by omega]
        simp
      · rw [if_neg hin, if_neg hba, if_neg (by simp; omega)]

/-- The store keeps its canonical form over a write access, whether it succeeds or not (U6). -/
theorem State.wf_storeAfterWrite (addr : Nat) (bytes : List Byte) (s : State) (h : Memory.wf s.ps = true) :
    Memory.wf (s.storeAfterWrite addr bytes) = true := Memory.wf_writeBytes _ _ h

/-- A successful write then a read of the same bytes returns them (R29). -/
theorem Memory.readBytes_writeBytes {m : List Host.Cell} (a : Nat) (bytes : List Byte) (h : Memory.wf m = true) :
    Memory.readBytes (Memory.writeBytes m a bytes) a bytes.length = bytes := by
  apply List.ext_getElem
  · simp [Memory.readBytes]
  · intro i h1 h2
    simp only [Memory.readBytes, List.getElem_map, List.getElem_range]
    rw [Memory.read_writeBytes a bytes (a + i) h, if_pos ⟨by omega, by omega⟩, show a + i - a = i by omega]
    simp [h2]

end Sys2Proof.Machine
end

