-- ==== Sys2Proof/Laws/Serializer.lean ====
section
/-! SUPPORT. The serializer's lengths, what a receiver samples of a transmission, and the line levels it leaves
(spec/43_serializer.md R112 to R115, spec/30_encoding.md R60 to R66). -/

namespace Sys2Proof.Machine

@[simp] theorem length_msbFirst {n : Nat} (v : BitVec n) : (msbFirst v).length = n := by simp [msbFirst]

@[simp] theorem length_channelsDown (top n : Nat) : (channelsDown top n).length = n := by simp [channelsDown]

/-- The division of the chain into two banks is exact (R5). -/
theorem two_mul_bank (c : Config) : 2 * c.bank = c.channelCount := by
  have h := c.wf
  simp only [Params.wellFormed, Params.channelCountOk, Bool.and_eq_true, decide_eq_true_eq] at h
  have heven := h.1.1.1.1.1.2.2
  unfold Config.bank
  omega

/-- A bank has at least one channel (R5). -/
theorem bank_pos (c : Config) : 0 < c.bank := by
  have h := c.wf
  simp only [Params.wellFormed, Params.channelCountOk, Bool.and_eq_true, decide_eq_true_eq] at h
  have h2 := h.1.1.1.1.1.2.1
  unfold Config.bank
  omega

/-- A frame is what both chips hold (R66). -/
theorem two_mul_chipBits (c : Config) : 2 * c.chipBits = c.frameLength := by
  have := two_mul_bank c
  unfold Config.chipBits Config.frameLength
  omega

theorem length_flatMap_msbFirst (l : List Nat) (value : Nat → Drive) :
    (l.flatMap fun ch => msbFirst (value ch)).length = 12 * l.length := by
  induction l with
  | nil => rfl
  | cons ch rest ih => simp [List.flatMap_cons, ih]; omega

/-- The length of a frame (R60). -/
theorem length_frameBits (c : Config) (cmd : Byte) (value : Nat → Drive) :
    (frameBits c cmd value).length = c.frameLength := by
  have h := two_mul_bank c
  simp only [frameBits, List.length_append, length_flatMap_msbFirst, length_channelsDown, length_msbFirst, Config.frameLength]
  omega

/-- A transmission is one pulse per bit of the frame and the terminator (R64, R65). -/
theorem transmission_eq_pulses (c : Config) (cmd : Byte) (value : Nat → Drive) :
    transmission c cmd value = (frameBits c cmd value).flatMap pulse ++ terminator := by
  simp only [transmission, frameBits, emitField, List.flatMap_append, List.flatMap_assoc, List.append_assoc]

theorem length_flatMap_pulse (bits : List Bool) : (bits.flatMap pulse).length = 3 * bits.length := by
  induction bits with
  | nil => rfl
  | cons b rest ih => simp [List.flatMap_cons, pulse, ih]; omega

/-- A receiver samples the bits of the pulses (R64). -/
theorem sampled_pulses (level : Bool) (bits : List Bool) (rest : List Event) :
    sampled level (bits.flatMap pulse ++ rest) = bits ++ sampled ((level :: bits).getLast (by simp)) rest := by
  induction bits generalizing level with
  | nil => simp
  | cons b tail ih =>
    have := ih b
    simpa [List.flatMap_cons, pulse, sampled] using this

/-- A receiver samples the frame (R64, R66). -/
theorem sampled_transmission (level : Bool) (c : Config) (cmd : Byte) (value : Nat → Drive) :
    sampled level (transmission c cmd value) = frameBits c cmd value := by
  rw [transmission_eq_pulses, sampled_pulses]
  simp [terminator, sampled]

theorem levelAfter_append (l : Line) (v : Bool) (a b : List Event) :
    levelAfter l v (a ++ b) = levelAfter l (levelAfter l v a) b := List.foldl_append

/-- Pulses leave the latch line alone and the clock low (R64, R114). -/
theorem levelAfter_pulses_latch (v : Bool) (bits : List Bool) : levelAfter .latch v (bits.flatMap pulse) = v := by
  induction bits with
  | nil => rfl
  | cons b rest ih => simpa [List.flatMap_cons, pulse, levelAfter, Event.levelOn] using ih

theorem levelAfter_pulses_clk (v : Bool) (bits : List Bool) :
    levelAfter .clk v (bits.flatMap pulse) = if bits = [] then v else false := by
  induction bits generalizing v with
  | nil => rfl
  | cons b rest ih =>
    have := ih false
    simp only [ite_self] at this
    simpa [List.flatMap_cons, pulse, levelAfter, Event.levelOn] using this

/-- The lines after a transmission: all low (R114). -/
theorem levelAfter_transmission (l : Line) (v : Bool) (c : Config) (cmd : Byte) (value : Nat → Drive) :
    levelAfter l v (transmission c cmd value) = false := by
  rw [transmission_eq_pulses, levelAfter_append]
  cases l
  · rfl
  · rw [levelAfter_pulses_clk, if_neg]
    · rfl
    · intro h
      have := length_frameBits c cmd value
      rw [h] at this
      simp [Config.frameLength] at this
  · rfl

/-- One bit more on the right (R13). -/
theorem bitsToNat_append_singleton (bits : List Bool) (b : Bool) :
    bitsToNat (bits ++ [b]) = 2 * bitsToNat bits + b.toNat := by
  simp [bitsToNat]

/-- Most significant bit first, read back (R13, R41). -/
theorem bitsToNat_msbFirst_prefix {n : Nat} (v : BitVec n) (k : Nat) (hk : k ≤ n) :
    bitsToNat ((List.range k).map v.getMsbD) = v.toNat / 2 ^ (n - k) := by
  induction k with
  | zero => simp [bitsToNat, Nat.div_eq_of_lt v.isLt]
  | succ k ih =>
    rw [List.range_succ, List.map_append, List.map_singleton, bitsToNat_append_singleton, ih (by omega)]
    have hbit : (v.getMsbD k).toNat = v.toNat / 2 ^ (n - (k + 1)) % 2 := by
      rw [BitVec.getMsbD_eq_getLsbD, decide_eq_true (show k < n by omega), Bool.true_and, BitVec.getLsbD,
        Nat.testBit_eq_decide_div_mod_eq, show n - 1 - k = n - (k + 1) by omega]
      rcases Nat.mod_two_eq_zero_or_one (v.toNat / 2 ^ (n - (k + 1))) with h | h <;> simp [h]
    rw [hbit, show n - k = n - (k + 1) + 1 by omega, pow_succ, ← Nat.div_div_eq_div_mul]
    omega

theorem bitsToNat_msbFirst {n : Nat} (v : BitVec n) : bitsToNat (msbFirst v) = v.toNat := by
  have := bitsToNat_msbFirst_prefix v n (le_refl n)
  simpa [msbFirst] using this

/-- A field found in its place reads back (R66). -/
theorem fieldAt_append {n : Nat} (v : BitVec n) (before rest : List Bool) :
    fieldAt n (before ++ msbFirst v ++ rest) before.length = v := by
  unfold fieldAt
  rw [List.append_assoc, List.drop_left, List.take_left' (length_msbFirst v), bitsToNat_msbFirst]
  simp

end Sys2Proof.Machine
end

