-- ==== Sys2Proof/Laws/State.lean ====
section
/-! SUPPORT. One lemma per field per update of the state, so that no later proof unfolds a record update. -/

namespace Sys2Proof.Machine

/-! ### drive -/

@[simp] theorem State.drive_cfg (evs : List Event) (s : State) : (s.drive evs).cfg = s.cfg := rfl
@[simp] theorem State.drive_fb (evs : List Event) (s : State) : (s.drive evs).fb = s.fb := rfl
@[simp] theorem State.drive_cal (evs : List Event) (s : State) : (s.drive evs).cal = s.cal := rfl
@[simp] theorem State.drive_calEn (evs : List Event) (s : State) : (s.drive evs).calEn = s.calEn := rfl
@[simp] theorem State.drive_initState (evs : List Event) (s : State) : (s.drive evs).initState = s.initState := rfl
@[simp] theorem State.drive_data (evs : List Event) (s : State) : (s.drive evs).data = levelAfter .data s.data evs := rfl
@[simp] theorem State.drive_clk (evs : List Event) (s : State) : (s.drive evs).clk = levelAfter .clk s.clk evs := rfl
@[simp] theorem State.drive_latch (evs : List Event) (s : State) : (s.drive evs).latch = levelAfter .latch s.latch evs := rfl
@[simp] theorem State.drive_out (evs : List Event) (s : State) : (s.drive evs).out = s.out ++ evs := rfl
@[simp] theorem State.drive_results (evs : List Event) (s : State) : (s.drive evs).results = s.results := rfl
@[simp] theorem State.drive_ps (evs : List Event) (s : State) : (s.drive evs).ps = s.ps := rfl
@[simp] theorem State.drive_anode (evs : List Event) (s : State) : (s.drive evs).anode = s.anode := rfl
@[simp] theorem State.drive_chipClk (evs : List Event) (s : State) : (s.drive evs).chipClk = s.chipClk := rfl
@[simp] theorem State.drive_chips (evs : List Event) (s : State) : (s.drive evs).chips = s.chips := rfl
@[simp] theorem State.drive_requests (evs : List Event) (s : State) : (s.drive evs).requests = s.requests := rfl
@[simp] theorem State.drive_storeDraws (evs : List Event) (s : State) : (s.drive evs).storeDraws = s.storeDraws := rfl
@[simp] theorem State.drive_draws (evs : List Event) (s : State) : (s.drive evs).draws = s.draws := rfl

/-! ### useStoreDraw -/

@[simp] theorem State.useStoreDraw_cfg (s : State) : (s.useStoreDraw).cfg = s.cfg := rfl
@[simp] theorem State.useStoreDraw_fb (s : State) : (s.useStoreDraw).fb = s.fb := rfl
@[simp] theorem State.useStoreDraw_cal (s : State) : (s.useStoreDraw).cal = s.cal := rfl
@[simp] theorem State.useStoreDraw_calEn (s : State) : (s.useStoreDraw).calEn = s.calEn := rfl
@[simp] theorem State.useStoreDraw_initState (s : State) : (s.useStoreDraw).initState = s.initState := rfl
@[simp] theorem State.useStoreDraw_data (s : State) : (s.useStoreDraw).data = s.data := rfl
@[simp] theorem State.useStoreDraw_clk (s : State) : (s.useStoreDraw).clk = s.clk := rfl
@[simp] theorem State.useStoreDraw_latch (s : State) : (s.useStoreDraw).latch = s.latch := rfl
@[simp] theorem State.useStoreDraw_out (s : State) : (s.useStoreDraw).out = s.out := rfl
@[simp] theorem State.useStoreDraw_results (s : State) : (s.useStoreDraw).results = s.results := rfl
@[simp] theorem State.useStoreDraw_ps (s : State) : (s.useStoreDraw).ps = s.ps := rfl
@[simp] theorem State.useStoreDraw_anode (s : State) : (s.useStoreDraw).anode = s.anode := rfl
@[simp] theorem State.useStoreDraw_chipClk (s : State) : (s.useStoreDraw).chipClk = s.chipClk := rfl
@[simp] theorem State.useStoreDraw_chips (s : State) : (s.useStoreDraw).chips = s.chips := rfl
@[simp] theorem State.useStoreDraw_requests (s : State) : (s.useStoreDraw).requests = s.requests := rfl
@[simp] theorem State.useStoreDraw_storeDraws (s : State) : (s.useStoreDraw).storeDraws = s.storeDraws.tail := rfl
@[simp] theorem State.useStoreDraw_draws (s : State) : (s.useStoreDraw).draws = s.draws + 1 := rfl

/-! ### useDraws -/

@[simp] theorem State.useDraws_cfg (n : Nat) (s : State) : (s.useDraws n).cfg = s.cfg := rfl
@[simp] theorem State.useDraws_fb (n : Nat) (s : State) : (s.useDraws n).fb = s.fb := rfl
@[simp] theorem State.useDraws_cal (n : Nat) (s : State) : (s.useDraws n).cal = s.cal := rfl
@[simp] theorem State.useDraws_calEn (n : Nat) (s : State) : (s.useDraws n).calEn = s.calEn := rfl
@[simp] theorem State.useDraws_initState (n : Nat) (s : State) : (s.useDraws n).initState = s.initState := rfl
@[simp] theorem State.useDraws_data (n : Nat) (s : State) : (s.useDraws n).data = s.data := rfl
@[simp] theorem State.useDraws_clk (n : Nat) (s : State) : (s.useDraws n).clk = s.clk := rfl
@[simp] theorem State.useDraws_latch (n : Nat) (s : State) : (s.useDraws n).latch = s.latch := rfl
@[simp] theorem State.useDraws_out (n : Nat) (s : State) : (s.useDraws n).out = s.out := rfl
@[simp] theorem State.useDraws_results (n : Nat) (s : State) : (s.useDraws n).results = s.results := rfl
@[simp] theorem State.useDraws_ps (n : Nat) (s : State) : (s.useDraws n).ps = s.ps := rfl
@[simp] theorem State.useDraws_anode (n : Nat) (s : State) : (s.useDraws n).anode = s.anode := rfl
@[simp] theorem State.useDraws_chipClk (n : Nat) (s : State) : (s.useDraws n).chipClk = s.chipClk := rfl
@[simp] theorem State.useDraws_chips (n : Nat) (s : State) : (s.useDraws n).chips = s.chips := rfl
@[simp] theorem State.useDraws_requests (n : Nat) (s : State) : (s.useDraws n).requests = s.requests := rfl
@[simp] theorem State.useDraws_storeDraws (n : Nat) (s : State) : (s.useDraws n).storeDraws = s.storeDraws := rfl
@[simp] theorem State.useDraws_draws (n : Nat) (s : State) : (s.useDraws n).draws = s.draws + n := rfl

/-! ### withResult -/

@[simp] theorem State.withResult_cfg (r : Result) (s : State) : (s.withResult r).cfg = s.cfg := rfl
@[simp] theorem State.withResult_fb (r : Result) (s : State) : (s.withResult r).fb = s.fb := rfl
@[simp] theorem State.withResult_cal (r : Result) (s : State) : (s.withResult r).cal = s.cal := rfl
@[simp] theorem State.withResult_calEn (r : Result) (s : State) : (s.withResult r).calEn = s.calEn := rfl
@[simp] theorem State.withResult_initState (r : Result) (s : State) : (s.withResult r).initState = s.initState := rfl
@[simp] theorem State.withResult_data (r : Result) (s : State) : (s.withResult r).data = s.data := rfl
@[simp] theorem State.withResult_clk (r : Result) (s : State) : (s.withResult r).clk = s.clk := rfl
@[simp] theorem State.withResult_latch (r : Result) (s : State) : (s.withResult r).latch = s.latch := rfl
@[simp] theorem State.withResult_out (r : Result) (s : State) : (s.withResult r).out = s.out := rfl
@[simp] theorem State.withResult_results (r : Result) (s : State) : (s.withResult r).results = s.results ++ [r] := rfl
@[simp] theorem State.withResult_ps (r : Result) (s : State) : (s.withResult r).ps = s.ps := rfl
@[simp] theorem State.withResult_anode (r : Result) (s : State) : (s.withResult r).anode = s.anode := rfl
@[simp] theorem State.withResult_chipClk (r : Result) (s : State) : (s.withResult r).chipClk = s.chipClk := rfl
@[simp] theorem State.withResult_chips (r : Result) (s : State) : (s.withResult r).chips = s.chips := rfl
@[simp] theorem State.withResult_requests (r : Result) (s : State) : (s.withResult r).requests = s.requests := rfl
@[simp] theorem State.withResult_storeDraws (r : Result) (s : State) : (s.withResult r).storeDraws = s.storeDraws := rfl
@[simp] theorem State.withResult_draws (r : Result) (s : State) : (s.withResult r).draws = s.draws := rfl

/-! ### setCalEn -/

@[simp] theorem State.setCalEn_cfg (v : Bool) (s : State) : (s.setCalEn v).cfg = s.cfg := rfl
@[simp] theorem State.setCalEn_fb (v : Bool) (s : State) : (s.setCalEn v).fb = s.fb := rfl
@[simp] theorem State.setCalEn_cal (v : Bool) (s : State) : (s.setCalEn v).cal = s.cal := rfl
@[simp] theorem State.setCalEn_calEn (v : Bool) (s : State) : (s.setCalEn v).calEn = v := rfl
@[simp] theorem State.setCalEn_initState (v : Bool) (s : State) : (s.setCalEn v).initState = s.initState := rfl
@[simp] theorem State.setCalEn_data (v : Bool) (s : State) : (s.setCalEn v).data = s.data := rfl
@[simp] theorem State.setCalEn_clk (v : Bool) (s : State) : (s.setCalEn v).clk = s.clk := rfl
@[simp] theorem State.setCalEn_latch (v : Bool) (s : State) : (s.setCalEn v).latch = s.latch := rfl
@[simp] theorem State.setCalEn_out (v : Bool) (s : State) : (s.setCalEn v).out = s.out := rfl
@[simp] theorem State.setCalEn_results (v : Bool) (s : State) : (s.setCalEn v).results = s.results := rfl
@[simp] theorem State.setCalEn_ps (v : Bool) (s : State) : (s.setCalEn v).ps = s.ps := rfl
@[simp] theorem State.setCalEn_anode (v : Bool) (s : State) : (s.setCalEn v).anode = s.anode := rfl
@[simp] theorem State.setCalEn_chipClk (v : Bool) (s : State) : (s.setCalEn v).chipClk = s.chipClk := rfl
@[simp] theorem State.setCalEn_chips (v : Bool) (s : State) : (s.setCalEn v).chips = s.chips := rfl
@[simp] theorem State.setCalEn_requests (v : Bool) (s : State) : (s.setCalEn v).requests = s.requests := rfl
@[simp] theorem State.setCalEn_storeDraws (v : Bool) (s : State) : (s.setCalEn v).storeDraws = s.storeDraws := rfl
@[simp] theorem State.setCalEn_draws (v : Bool) (s : State) : (s.setCalEn v).draws = s.draws := rfl

/-! ### setInitState -/

@[simp] theorem State.setInitState_cfg (i : InitState) (s : State) : (s.setInitState i).cfg = s.cfg := rfl
@[simp] theorem State.setInitState_fb (i : InitState) (s : State) : (s.setInitState i).fb = s.fb := rfl
@[simp] theorem State.setInitState_cal (i : InitState) (s : State) : (s.setInitState i).cal = s.cal := rfl
@[simp] theorem State.setInitState_calEn (i : InitState) (s : State) : (s.setInitState i).calEn = s.calEn := rfl
@[simp] theorem State.setInitState_initState (i : InitState) (s : State) : (s.setInitState i).initState = i := rfl
@[simp] theorem State.setInitState_data (i : InitState) (s : State) : (s.setInitState i).data = s.data := rfl
@[simp] theorem State.setInitState_clk (i : InitState) (s : State) : (s.setInitState i).clk = s.clk := rfl
@[simp] theorem State.setInitState_latch (i : InitState) (s : State) : (s.setInitState i).latch = s.latch := rfl
@[simp] theorem State.setInitState_out (i : InitState) (s : State) : (s.setInitState i).out = s.out := rfl
@[simp] theorem State.setInitState_results (i : InitState) (s : State) : (s.setInitState i).results = s.results := rfl
@[simp] theorem State.setInitState_ps (i : InitState) (s : State) : (s.setInitState i).ps = s.ps := rfl
@[simp] theorem State.setInitState_anode (i : InitState) (s : State) : (s.setInitState i).anode = s.anode := rfl
@[simp] theorem State.setInitState_chipClk (i : InitState) (s : State) : (s.setInitState i).chipClk = s.chipClk := rfl
@[simp] theorem State.setInitState_chips (i : InitState) (s : State) : (s.setInitState i).chips = s.chips := rfl
@[simp] theorem State.setInitState_requests (i : InitState) (s : State) : (s.setInitState i).requests = s.requests := rfl
@[simp] theorem State.setInitState_storeDraws (i : InitState) (s : State) : (s.setInitState i).storeDraws = s.storeDraws := rfl
@[simp] theorem State.setInitState_draws (i : InitState) (s : State) : (s.setInitState i).draws = s.draws := rfl

/-! ### setFb -/

@[simp] theorem State.setFb_cfg (values : List Drive) (s : State) : (s.setFb values).cfg = s.cfg := rfl
@[simp] theorem State.setFb_fb (values : List Drive) (s : State) : (s.setFb values).fb = values := rfl
@[simp] theorem State.setFb_cal (values : List Drive) (s : State) : (s.setFb values).cal = s.cal := rfl
@[simp] theorem State.setFb_calEn (values : List Drive) (s : State) : (s.setFb values).calEn = s.calEn := rfl
@[simp] theorem State.setFb_initState (values : List Drive) (s : State) : (s.setFb values).initState = s.initState := rfl
@[simp] theorem State.setFb_data (values : List Drive) (s : State) : (s.setFb values).data = s.data := rfl
@[simp] theorem State.setFb_clk (values : List Drive) (s : State) : (s.setFb values).clk = s.clk := rfl
@[simp] theorem State.setFb_latch (values : List Drive) (s : State) : (s.setFb values).latch = s.latch := rfl
@[simp] theorem State.setFb_out (values : List Drive) (s : State) : (s.setFb values).out = s.out := rfl
@[simp] theorem State.setFb_results (values : List Drive) (s : State) : (s.setFb values).results = s.results := rfl
@[simp] theorem State.setFb_ps (values : List Drive) (s : State) : (s.setFb values).ps = s.ps := rfl
@[simp] theorem State.setFb_anode (values : List Drive) (s : State) : (s.setFb values).anode = s.anode := rfl
@[simp] theorem State.setFb_chipClk (values : List Drive) (s : State) : (s.setFb values).chipClk = s.chipClk := rfl
@[simp] theorem State.setFb_chips (values : List Drive) (s : State) : (s.setFb values).chips = s.chips := rfl
@[simp] theorem State.setFb_requests (values : List Drive) (s : State) : (s.setFb values).requests = s.requests := rfl
@[simp] theorem State.setFb_storeDraws (values : List Drive) (s : State) : (s.setFb values).storeDraws = s.storeDraws := rfl
@[simp] theorem State.setFb_draws (values : List Drive) (s : State) : (s.setFb values).draws = s.draws := rfl

/-! ### setCal -/

@[simp] theorem State.setCal_cfg (values : List CalVal) (s : State) : (s.setCal values).cfg = s.cfg := rfl
@[simp] theorem State.setCal_fb (values : List CalVal) (s : State) : (s.setCal values).fb = s.fb := rfl
@[simp] theorem State.setCal_cal (values : List CalVal) (s : State) : (s.setCal values).cal = values := rfl
@[simp] theorem State.setCal_calEn (values : List CalVal) (s : State) : (s.setCal values).calEn = s.calEn := rfl
@[simp] theorem State.setCal_initState (values : List CalVal) (s : State) : (s.setCal values).initState = s.initState := rfl
@[simp] theorem State.setCal_data (values : List CalVal) (s : State) : (s.setCal values).data = s.data := rfl
@[simp] theorem State.setCal_clk (values : List CalVal) (s : State) : (s.setCal values).clk = s.clk := rfl
@[simp] theorem State.setCal_latch (values : List CalVal) (s : State) : (s.setCal values).latch = s.latch := rfl
@[simp] theorem State.setCal_out (values : List CalVal) (s : State) : (s.setCal values).out = s.out := rfl
@[simp] theorem State.setCal_results (values : List CalVal) (s : State) : (s.setCal values).results = s.results := rfl
@[simp] theorem State.setCal_ps (values : List CalVal) (s : State) : (s.setCal values).ps = s.ps := rfl
@[simp] theorem State.setCal_anode (values : List CalVal) (s : State) : (s.setCal values).anode = s.anode := rfl
@[simp] theorem State.setCal_chipClk (values : List CalVal) (s : State) : (s.setCal values).chipClk = s.chipClk := rfl
@[simp] theorem State.setCal_chips (values : List CalVal) (s : State) : (s.setCal values).chips = s.chips := rfl
@[simp] theorem State.setCal_requests (values : List CalVal) (s : State) : (s.setCal values).requests = s.requests := rfl
@[simp] theorem State.setCal_storeDraws (values : List CalVal) (s : State) : (s.setCal values).storeDraws = s.storeDraws := rfl
@[simp] theorem State.setCal_draws (values : List CalVal) (s : State) : (s.setCal values).draws = s.draws := rfl

/-! ### setLevel -/

@[simp] theorem State.setLevel_cfg (l : Line) (v : Bool) (s : State) : (s.setLevel l v).cfg = s.cfg := rfl
@[simp] theorem State.setLevel_fb (l : Line) (v : Bool) (s : State) : (s.setLevel l v).fb = s.fb := rfl
@[simp] theorem State.setLevel_cal (l : Line) (v : Bool) (s : State) : (s.setLevel l v).cal = s.cal := rfl
@[simp] theorem State.setLevel_calEn (l : Line) (v : Bool) (s : State) : (s.setLevel l v).calEn = s.calEn := rfl
@[simp] theorem State.setLevel_initState (l : Line) (v : Bool) (s : State) : (s.setLevel l v).initState = s.initState := rfl
@[simp] theorem State.setLevel_data (l : Line) (v : Bool) (s : State) : (s.setLevel l v).data = if l = .data then v else s.data := rfl
@[simp] theorem State.setLevel_clk (l : Line) (v : Bool) (s : State) : (s.setLevel l v).clk = if l = .clk then v else s.clk := rfl
@[simp] theorem State.setLevel_latch (l : Line) (v : Bool) (s : State) : (s.setLevel l v).latch = if l = .latch then v else s.latch := rfl
@[simp] theorem State.setLevel_out (l : Line) (v : Bool) (s : State) : (s.setLevel l v).out = s.out ++ [.level l v] := rfl
@[simp] theorem State.setLevel_results (l : Line) (v : Bool) (s : State) : (s.setLevel l v).results = s.results := rfl
@[simp] theorem State.setLevel_ps (l : Line) (v : Bool) (s : State) : (s.setLevel l v).ps = s.ps := rfl
@[simp] theorem State.setLevel_anode (l : Line) (v : Bool) (s : State) : (s.setLevel l v).anode = s.anode := rfl
@[simp] theorem State.setLevel_chipClk (l : Line) (v : Bool) (s : State) : (s.setLevel l v).chipClk = s.chipClk := rfl
@[simp] theorem State.setLevel_chips (l : Line) (v : Bool) (s : State) : (s.setLevel l v).chips = s.chips := rfl
@[simp] theorem State.setLevel_requests (l : Line) (v : Bool) (s : State) : (s.setLevel l v).requests = s.requests := rfl
@[simp] theorem State.setLevel_storeDraws (l : Line) (v : Bool) (s : State) : (s.setLevel l v).storeDraws = s.storeDraws := rfl
@[simp] theorem State.setLevel_draws (l : Line) (v : Bool) (s : State) : (s.setLevel l v).draws = s.draws := rfl

/-! ### sleepMs -/

@[simp] theorem State.sleepMs_cfg (n : Nat) (s : State) : (s.sleepMs n).cfg = s.cfg := rfl
@[simp] theorem State.sleepMs_fb (n : Nat) (s : State) : (s.sleepMs n).fb = s.fb := rfl
@[simp] theorem State.sleepMs_cal (n : Nat) (s : State) : (s.sleepMs n).cal = s.cal := rfl
@[simp] theorem State.sleepMs_calEn (n : Nat) (s : State) : (s.sleepMs n).calEn = s.calEn := rfl
@[simp] theorem State.sleepMs_initState (n : Nat) (s : State) : (s.sleepMs n).initState = s.initState := rfl
@[simp] theorem State.sleepMs_data (n : Nat) (s : State) : (s.sleepMs n).data = s.data := rfl
@[simp] theorem State.sleepMs_clk (n : Nat) (s : State) : (s.sleepMs n).clk = s.clk := rfl
@[simp] theorem State.sleepMs_latch (n : Nat) (s : State) : (s.sleepMs n).latch = s.latch := rfl
@[simp] theorem State.sleepMs_out (n : Nat) (s : State) : (s.sleepMs n).out = s.out ++ [.delay n] := rfl
@[simp] theorem State.sleepMs_results (n : Nat) (s : State) : (s.sleepMs n).results = s.results := rfl
@[simp] theorem State.sleepMs_ps (n : Nat) (s : State) : (s.sleepMs n).ps = s.ps := rfl
@[simp] theorem State.sleepMs_anode (n : Nat) (s : State) : (s.sleepMs n).anode = s.anode := rfl
@[simp] theorem State.sleepMs_chipClk (n : Nat) (s : State) : (s.sleepMs n).chipClk = s.chipClk := rfl
@[simp] theorem State.sleepMs_chips (n : Nat) (s : State) : (s.sleepMs n).chips = s.chips := rfl
@[simp] theorem State.sleepMs_requests (n : Nat) (s : State) : (s.sleepMs n).requests = s.requests := rfl
@[simp] theorem State.sleepMs_storeDraws (n : Nat) (s : State) : (s.sleepMs n).storeDraws = s.storeDraws := rfl
@[simp] theorem State.sleepMs_draws (n : Nat) (s : State) : (s.sleepMs n).draws = s.draws := rfl

/-! ### transmit -/

@[simp] theorem State.transmit_cfg (w : WireCommand) (values : List Drive) (s : State) : (s.transmit w values).cfg = s.cfg := rfl
@[simp] theorem State.transmit_fb (w : WireCommand) (values : List Drive) (s : State) : (s.transmit w values).fb = s.fb := rfl
@[simp] theorem State.transmit_cal (w : WireCommand) (values : List Drive) (s : State) : (s.transmit w values).cal = s.cal := rfl
@[simp] theorem State.transmit_calEn (w : WireCommand) (values : List Drive) (s : State) : (s.transmit w values).calEn = s.calEn := rfl
@[simp] theorem State.transmit_initState (w : WireCommand) (values : List Drive) (s : State) : (s.transmit w values).initState = s.initState := rfl
@[simp] theorem State.transmit_out (w : WireCommand) (values : List Drive) (s : State) : (s.transmit w values).out = s.out ++ transmission s.cfg (s.cfg.code w) (channelValue s.cfg values) := rfl
@[simp] theorem State.transmit_results (w : WireCommand) (values : List Drive) (s : State) : (s.transmit w values).results = s.results := rfl
@[simp] theorem State.transmit_ps (w : WireCommand) (values : List Drive) (s : State) : (s.transmit w values).ps = s.ps := rfl
@[simp] theorem State.transmit_anode (w : WireCommand) (values : List Drive) (s : State) : (s.transmit w values).anode = s.anode := rfl
@[simp] theorem State.transmit_chipClk (w : WireCommand) (values : List Drive) (s : State) : (s.transmit w values).chipClk = s.chipClk := rfl
@[simp] theorem State.transmit_chips (w : WireCommand) (values : List Drive) (s : State) : (s.transmit w values).chips = s.chips.receive s.cfg s.draws s.data (transmission s.cfg (s.cfg.code w) (channelValue s.cfg values)) := rfl
@[simp] theorem State.transmit_requests (w : WireCommand) (values : List Drive) (s : State) : (s.transmit w values).requests = s.requests := rfl
@[simp] theorem State.transmit_storeDraws (w : WireCommand) (values : List Drive) (s : State) : (s.transmit w values).storeDraws = s.storeDraws := rfl
@[simp] theorem State.transmit_draws (w : WireCommand) (values : List Drive) (s : State) : (s.transmit w values).draws = s.draws + drawsPerTransmission := rfl

/-! ### resetHold -/

@[simp] theorem State.resetHold_cfg (s : State) : (s.resetHold).cfg = s.cfg := rfl
@[simp] theorem State.resetHold_fb (s : State) : (s.resetHold).fb = s.fb := rfl
@[simp] theorem State.resetHold_cal (s : State) : (s.resetHold).cal = s.cal := rfl
@[simp] theorem State.resetHold_calEn (s : State) : (s.resetHold).calEn = s.calEn := rfl
@[simp] theorem State.resetHold_initState (s : State) : (s.resetHold).initState = s.initState := rfl
@[simp] theorem State.resetHold_data (s : State) : (s.resetHold).data = s.data := rfl
@[simp] theorem State.resetHold_clk (s : State) : (s.resetHold).clk = s.clk := rfl
@[simp] theorem State.resetHold_latch (s : State) : (s.resetHold).latch = false := rfl
@[simp] theorem State.resetHold_out (s : State) : (s.resetHold).out = s.out ++ [.level .latch true, .delay s.cfg.resetHoldMs, .level .latch false] := by simp [State.resetHold, State.setLevel, State.sleepMs, State.drive]
@[simp] theorem State.resetHold_results (s : State) : (s.resetHold).results = s.results := rfl
@[simp] theorem State.resetHold_ps (s : State) : (s.resetHold).ps = s.ps := rfl
@[simp] theorem State.resetHold_anode (s : State) : (s.resetHold).anode = s.anode := rfl
@[simp] theorem State.resetHold_chipClk (s : State) : (s.resetHold).chipClk = s.chipClk := rfl
@[simp] theorem State.resetHold_chips (s : State) : (s.resetHold).chips = s.chips.hold s.cfg s.draws := rfl
@[simp] theorem State.resetHold_requests (s : State) : (s.resetHold).requests = s.requests := rfl
@[simp] theorem State.resetHold_storeDraws (s : State) : (s.resetHold).storeDraws = s.storeDraws := rfl
@[simp] theorem State.resetHold_draws (s : State) : (s.resetHold).draws = s.draws + drawsPerHold := rfl

/-! ### pwmProgram -/

@[simp] theorem State.pwmProgram_cfg (unit : PwmUnit) (what : PwmProgram) (s : State) :
    (s.pwmProgram unit what).cfg = s.cfg := by cases unit <;> rfl
@[simp] theorem State.pwmProgram_fb (unit : PwmUnit) (what : PwmProgram) (s : State) :
    (s.pwmProgram unit what).fb = s.fb := by cases unit <;> rfl
@[simp] theorem State.pwmProgram_cal (unit : PwmUnit) (what : PwmProgram) (s : State) :
    (s.pwmProgram unit what).cal = s.cal := by cases unit <;> rfl
@[simp] theorem State.pwmProgram_calEn (unit : PwmUnit) (what : PwmProgram) (s : State) :
    (s.pwmProgram unit what).calEn = s.calEn := by cases unit <;> rfl
@[simp] theorem State.pwmProgram_initState (unit : PwmUnit) (what : PwmProgram) (s : State) :
    (s.pwmProgram unit what).initState = s.initState := by cases unit <;> rfl
@[simp] theorem State.pwmProgram_data (unit : PwmUnit) (what : PwmProgram) (s : State) :
    (s.pwmProgram unit what).data = s.data := by cases unit <;> rfl
@[simp] theorem State.pwmProgram_clk (unit : PwmUnit) (what : PwmProgram) (s : State) :
    (s.pwmProgram unit what).clk = s.clk := by cases unit <;> rfl
@[simp] theorem State.pwmProgram_latch (unit : PwmUnit) (what : PwmProgram) (s : State) :
    (s.pwmProgram unit what).latch = s.latch := by cases unit <;> rfl
@[simp] theorem State.pwmProgram_out (unit : PwmUnit) (what : PwmProgram) (s : State) :
    (s.pwmProgram unit what).out = s.out ++ [.pwm unit what] := by cases unit <;> rfl
@[simp] theorem State.pwmProgram_results (unit : PwmUnit) (what : PwmProgram) (s : State) :
    (s.pwmProgram unit what).results = s.results := by cases unit <;> rfl
@[simp] theorem State.pwmProgram_ps (unit : PwmUnit) (what : PwmProgram) (s : State) :
    (s.pwmProgram unit what).ps = s.ps := by cases unit <;> rfl
@[simp] theorem State.pwmProgram_chips (unit : PwmUnit) (what : PwmProgram) (s : State) :
    (s.pwmProgram unit what).chips = s.chips := by cases unit <;> rfl
@[simp] theorem State.pwmProgram_requests (unit : PwmUnit) (what : PwmProgram) (s : State) :
    (s.pwmProgram unit what).requests = s.requests := by cases unit <;> rfl
@[simp] theorem State.pwmProgram_storeDraws (unit : PwmUnit) (what : PwmProgram) (s : State) :
    (s.pwmProgram unit what).storeDraws = s.storeDraws := by cases unit <;> rfl
@[simp] theorem State.pwmProgram_draws (unit : PwmUnit) (what : PwmProgram) (s : State) :
    (s.pwmProgram unit what).draws = s.draws := by cases unit <;> rfl
@[simp] theorem State.pwmProgram_anode_anode (what : PwmProgram) (s : State) :
    (s.pwmProgram .anode what).anode = programUnit s.anode what := rfl
@[simp] theorem State.pwmProgram_anode_chipClk (what : PwmProgram) (s : State) :
    (s.pwmProgram .anode what).chipClk = s.chipClk := rfl
@[simp] theorem State.pwmProgram_chipClk_anode (what : PwmProgram) (s : State) :
    (s.pwmProgram .chipClk what).anode = s.anode := rfl
@[simp] theorem State.pwmProgram_chipClk_chipClk (what : PwmProgram) (s : State) :
    (s.pwmProgram .chipClk what).chipClk = programUnit s.chipClk what := rfl

end Sys2Proof.Machine
end

