-- ==== Sys2Proof/Laws/Ops.lean ====
section
/-! SUPPORT. For each shared operation, what it can do: the acceptance rule, the ends of an operation, a transmission, the
store accesses, the operand checks and the table lookups. -/

namespace Sys2Proof.Machine

/-! ### Acceptance and ends -/

theorem State.guarded_ready {s : State} (h : s.initState = .pwmEnabled) (o : Outcome) : s.guarded o = o := if_pos h

theorem State.guarded_not_ready {s : State} (h : s.initState ≠ .pwmEnabled) (o : Outcome) :
    s.guarded o = .refused .notInitialized := if_neg h

/-- A guarded operation that answers a next state was accepted (R136). -/
theorem State.guarded_next {s t : State} {o : Outcome} (h : s.guarded o = .next t) :
    s.initState = .pwmEnabled ∧ o = .next t := by
  unfold State.guarded at h
  split at h
  · exact ⟨‹_›, h⟩
  · cases h

theorem State.finish_next {s t : State} : s.finish = .next t ↔ t = s.withResult .ok := by
  simp [State.finish, eq_comm]

theorem State.fail_next {s t : State} {k : ErrorKind} : s.fail k = .next t ↔ t = s.withResult (.err k) := by
  simp [State.fail, eq_comm]

/-! ### A transmission -/

/-- The lines after a transmission are low (R114). -/
@[simp] theorem State.transmit_data (w : WireCommand) (values : List Drive) (s : State) :
    (s.transmit w values).data = false := levelAfter_transmission ..

@[simp] theorem State.transmit_clk (w : WireCommand) (values : List Drive) (s : State) :
    (s.transmit w values).clk = false := levelAfter_transmission ..

@[simp] theorem State.transmit_latch (w : WireCommand) (values : List Drive) (s : State) :
    (s.transmit w values).latch = false := levelAfter_transmission ..

/-- A whole frame fills both chips' shift registers: chip 2 holds the first half, chip 1 the second (R66). -/
theorem Chips.shiftIn_frame (c : Config) (bits : List Bool) (chips : Chips) (h : bits.length = c.frameLength) :
    chips.shiftIn c bits =
      { chips with
        chip2 := { chips.chip2 with shift := bits.take c.chipBits }
        chip1 := { chips.chip1 with shift := bits.drop c.chipBits } } := by
  have hlen : 2 * c.chipBits = bits.length := (two_mul_chipBits c).trans h.symm
  have hdrop : (chips.chip2.shift ++ chips.chip1.shift ++ bits).drop
      ((chips.chip2.shift ++ chips.chip1.shift ++ bits).length - 2 * c.chipBits) = bits := by
    rw [hlen, List.length_append, Nat.add_sub_cancel, List.drop_left]
  simp only [Chips.shiftIn, hdrop]

/-- What the chips receive of a transmission is its frame (R30a, R66). -/
theorem Chips.receive_transmission (c : Config) (d : Nat) (level : Bool) (cmd : Byte) (value : Nat → Drive)
    (chips : Chips) :
    chips.receive c d level (transmission c cmd value) = (chips.shiftIn c (frameBits c cmd value)).latchPulse c d := by
  rw [Chips.receive, sampled_transmission]

/-- All that a bare wire command can do: in a ready state it is sent, in any other it is refused (R118, R136). -/
theorem State.sendBare_next {s t : State} {w : WireCommand} {values : List Drive} :
    s.sendBare w values = .next t ↔ s.initState = .pwmEnabled ∧ t = s.transmit w values := by
  unfold State.sendBare State.guarded
  split <;> simp_all [eq_comm]

/-! ### Store accesses -/

theorem State.memRead_fst (addr n : Nat) (s : State) :
    (s.memRead addr n).1 = if s.storeOk then some (Memory.readBytes s.ps addr n) else none := rfl

theorem State.memRead_snd (addr n : Nat) (s : State) :
    (s.memRead addr n).2 = (s.drive [.nvRead addr n]).useStoreDraw := rfl

theorem State.loadFromPersistent_fst (s : State) : s.loadFromPersistent.1 = s.storeOk := by
  simp only [State.loadFromPersistent, State.memRead_fst]
  cases s.storeOk <;> rfl

theorem State.persistCal_false (s : State) : s.persistCal false = (true, s) := rfl

theorem State.persistCal_true (s : State) : s.persistCal true = s.memWrite s.cfg.calAddr s.calImage := rfl

/-- A loaded register: the byte if the read succeeded and the byte is at most 63 (R103). -/
theorem getElem?_calLoaded (n d i : Nat) (r : Option (List Byte)) (h : i < n) :
    (calLoaded n d r)[i]? = some (match r with
      | some bytes => calFromByte (bytes.getD i 0) (Config.freeCal (d + i))
      | none => Config.freeCal (d + i)) := by
  simp [calLoaded, h]
  cases r <;> rfl

theorem length_calLoaded (n d : Nat) (r : Option (List Byte)) : (calLoaded n d r).length = n := by
  simp [calLoaded]

/-! ### Operands -/

theorem driveOperand_of_le {v : Operand} (h : v.toNat ≤ 4095) : driveOperand v = some (v.setWidth 12) :=
  if_neg (by omega)

theorem driveOperand_of_gt {v : Operand} (h : 4095 < v.toNat) : driveOperand v = none := if_pos h

theorem symbolOperand_of_lt {c : Config} {i : Byte} (h : i.toNat < c.symbolCount) : symbolOperand c i = some i.toNat :=
  if_neg (by omega)

theorem symbolOperand_of_ge {c : Config} {i : Byte} (h : c.symbolCount ≤ i.toNat) : symbolOperand c i = none := if_pos h

theorem digitOperand_of_lt {c : Config} {d : Byte} (h : d.toNat < c.digitCount) : digitOperand c d = some d.toNat :=
  if_neg (by omega)

theorem digitOperand_of_ge {c : Config} {d : Byte} (h : c.digitCount ≤ d.toNat) : digitOperand c d = none := if_pos h

theorem voltsOperand_of_le {c : Config} {v : Operand} (h : v.toNat ≤ c.maxVoltage) : voltsOperand c v = some v.toNat :=
  if_neg (by omega)

theorem voltsOperand_of_gt {c : Config} {v : Operand} (h : c.maxVoltage < v.toNat) : voltsOperand c v = none := if_pos h

theorem calOperands_of_le {values : List Byte} (h : ∀ v ∈ values, v.toNat ≤ 63) :
    calOperands values = some (values.map fun b => b.setWidth 6) := if_pos (by simpa using h)

theorem calOperands_of_gt {values : List Byte} (h : ∃ v ∈ values, 63 < v.toNat) : calOperands values = none :=
  if_neg (by simpa using h)

/-! ### Tables -/

theorem mem_join_getElem? {l : List (Option Nat)} {k i : Nat} (h : (l[k]?).join = some i) : some i ∈ l := by
  rw [Option.join_eq_some_iff] at h
  exact List.mem_of_getElem? h

end Sys2Proof.Machine
end

