-- ==== Sys2Proof/Laws/PerInstr.lean ====
section
/-! SUPPORT. One lemma per instruction: an encoded instruction presents its row of spec/opcode_table.json, that is its
selector (spec/30_encoding.md R70, R73) or its command code (R63), with the unused bits 34:32 zero. -/

namespace Sys2Proof.Laws.EncodedRow

/-- The row an instruction belongs to: a selector, a reserved selector, or a wire command. -/
inductive Row where
  | selector (op : Nat)
  | reservedSelector
  | command (w : WireCommand)

/-- The row of each instruction (R70, R73, R63). -/
def row : Instr → Row
  | .hostInit => .selector 0
  | .setAnodeVoltage _ => .selector 1
  | .setAll _ => .selector 2
  | .setSymbol _ _ => .selector 3
  | .renderDigit _ _ _ => .selector 4
  | .commitFrame => .selector 5
  | .setCalibration _ _ => .selector 6
  | .setCalibrationEnabled _ => .selector 7
  | .updatePwm => .command .updatePwm
  | .toggleCorrection => .command .toggleCorrection
  | .updateCorrection => .command .updateCorrection
  | .enablePwm => .command .enablePwm
  | .disablePwm => .command .disablePwm
  | .togglePhaseShift => .command .togglePhaseShift
  | .reserved _ => .reservedSelector

/-- An item matches a row: match and mask of the opcode table. -/
def Matches (c : Config) : Row → Request → Prop
  | .selector op, .host w _ => (opField w).toNat = op ∧ w.extractLsb' 32 3 = 0
  | .reservedSelector, .host w _ => 8 ≤ (opField w).toNat ∧ w.extractLsb' 32 3 = 0
  | .command k, .wire code => code = c.code k
  | .selector _, .wire _ => False
  | .reservedSelector, .wire _ => False
  | .command _, .host _ _ => False

/-- The family's statement: the encoding of an instruction matches its row. -/
def Statement (i : Instr) : Prop := ∀ c : Config, Matches c (row i) (encode c i)

theorem matches_selector (c : Config) (op : BitVec 4) (flag : Bool) (chr idx : Byte) (val : Operand) (p : List Byte) :
    Matches c (.selector op.toNat) (.host (packWord op flag chr idx val) p) :=
  ⟨congrArg BitVec.toNat (opField_packWord ..), unused_packWord ..⟩

theorem hostInit : Statement .hostInit := fun c => matches_selector c 0 ..
theorem setAnodeVoltage (v : Operand) : Statement (.setAnodeVoltage v) := fun c => matches_selector c 1 ..
theorem setAll (v : Operand) : Statement (.setAll v) := fun c => matches_selector c 2 ..
theorem setSymbol (i : Byte) (v : Operand) : Statement (.setSymbol i v) := fun c => matches_selector c 3 ..
theorem renderDigit (ch d : Byte) (v : Operand) : Statement (.renderDigit ch d v) := fun c => matches_selector c 4 ..
theorem commitFrame : Statement .commitFrame := fun c => matches_selector c 5 ..
theorem setCalibration (p : Bool) (vs : List Byte) : Statement (.setCalibration p vs) := fun c => matches_selector c 6 ..
theorem setCalibrationEnabled (e : Bool) : Statement (.setCalibrationEnabled e) := fun c => matches_selector c 7 ..
theorem updatePwm : Statement .updatePwm := fun _ => rfl
theorem toggleCorrection : Statement .toggleCorrection := fun _ => rfl
theorem updateCorrection : Statement .updateCorrection := fun _ => rfl
theorem enablePwm : Statement .enablePwm := fun _ => rfl
theorem disablePwm : Statement .disablePwm := fun _ => rfl
theorem togglePhaseShift : Statement .togglePhaseShift := fun _ => rfl

theorem reserved (sel : BitVec 3) : Statement (.reserved sel) := fun _ => by
  refine ⟨?_, unused_packWord ..⟩
  rw [opField_packWord]
  have h : ∀ k : BitVec 3, 8 ≤ ((1#1 ++ k : BitVec 4)).toNat := by decide
  exact h sel

end Sys2Proof.Laws.EncodedRow
end

