-- ==== Sys2Proof/Tests/Slice0.lean ====
section
/-! SUPPORT. Tests. The fixtures, the request words, the frames and every expected value come from spec/95_test_vectors.md
(FIX-4, FIX-96, vectors D-T, D-F, D-C, D-S, D-W, D-K, D-E, program P1); each test names its vector. The last part shows,
for every obligation that has hypotheses, a state and operands that meet them, at the boundary values of its clauses. -/

set_option Elab.async false

namespace Sys2Proof.Tests

open Sys2Proof Sys2Proof.Machine

/-! ### Fixtures (spec/95_test_vectors.md section 1) -/

/-- The parameters of FIX-4; `T_LATCH_MIN` and the PWM tokens are the test's. -/
def fix4Params : Params where
  symbolCount := 3
  digitCount := 0
  channelCount := 4
  chanMap := [some 2, none, some 0, some 1]
  segMap := []
  glyph := [(0x38, 0x7F)]
  cmdUpdatePwm := 0x13
  cmdEnablePwm := 0x25
  cmdDisablePwm := 0x37
  cmdToggleCorrection := 0x49
  cmdUpdateCorrection := 0x5B
  cmdTogglePhaseShift := 0x6D
  calAddr := 0x100
  resetHoldMs := 10
  tLatchMin := 1
  maxVoltage := 30
  voltScale := 8
  pwmAnode := ⟨1, 1⟩
  pwmChipClk := ⟨2, 2⟩

def fix4 : Config := { toParams := fix4Params }

def fix96 : Config where
  toParams := { fix4Params with
    symbolCount := 84
    digitCount := 2
    channelCount := 96
    chanMap := (List.range 96).map fun c => if c % 8 = 7 then none else some (83 - (c - c / 8))
    segMap :=
      [[some 10, some 11, some 12, some 13, some 14, some 15, some 16],
        [some 20, some 21, none, some 23, some 24, some 25, some 26]]
    glyph :=
      [(0x30, 0x3F), (0x31, 0x06), (0x32, 0x5B), (0x33, 0x4F), (0x34, 0x66), (0x35, 0x6D), (0x36, 0x7D), (0x37, 0x07),
        (0x38, 0x7F), (0x39, 0x6F)] }

/-- A configuration whose digit uses one symbol in two slots (decision D21). -/
def fixShared : Config where
  toParams := { fix4Params with
    digitCount := 1
    segMap := [[some 0, some 1, some 0]]
    glyph := [(0x38, 0x7F), (0x31, 0x06)] }

/-- A state that accepts operations, `FB` as given, the other registers as at power-on. -/
def ready (c : Config) (fb : List Drive) : State := { State.powerOn c [] with initState := .pwmEnabled, fb := fb }

def ready4 : State := ready fix4 [0, 0, 0]

def ready96 (v : Drive) : State := ready fix96 (List.replicate 84 v)

/-- The answer is a next state with the given property. -/
def nextIs (p : State → Bool) : Host.Outcome State Fault Refusal → Bool
  | .next t => p t
  | _ => false

/-- The answer is this refusal. -/
def refusedAs (r : Refusal) : Host.Outcome State Fault Refusal → Bool
  | .refused r' => decide (r' = r)
  | _ => false

theorem exists_next {o : Host.Outcome State Fault Refusal} {P : State → Prop} [DecidablePred P]
    (h : nextIs (fun t => decide (P t)) o = true) : ∃ t, o = .next t ∧ P t := by
  match o, h with
  | .next t, h => exact ⟨t, rfl, by simpa [nextIs] using h⟩

/-! ### Well-formedness: one ill-formed term for each check -/

theorem test_fixtures_wellFormed : fix4.wellFormed = true ∧ fix96.wellFormed = true := by decide +kernel

theorem test_illFormed_symbolCount :
    { fix4Params with symbolCount := 0 }.wellFormed = false ∧ { fix4Params with symbolCount := 257 }.symbolCountOk = false := by
  decide +kernel

theorem test_illFormed_digitCount : { fix4Params with digitCount := 257 }.wellFormed = false := by decide +kernel

theorem test_illFormed_channelCount :
    { fix4Params with channelCount := 5 }.wellFormed = false ∧ { fix4Params with channelCount := 0 }.channelCountOk = false := by
  decide +kernel

theorem test_illFormed_chanMap : { fix4Params with chanMap := [some 3] }.wellFormed = false := by decide +kernel

theorem test_illFormed_segMap : { fix4Params with segMap := [[none, some 3]] }.wellFormed = false := by decide +kernel

theorem test_illFormed_glyph :
    { fix4Params with glyph := [(0x38, 0x3F)] }.wellFormed = false ∧
      { fix4Params with glyph := [(0x38, 0x7F), (0x20, 0x01)] }.glyphOk = false ∧
      { fix4Params with glyph := [(0x38, 0x7F), (0x1F, 0x01)] }.glyphOk = false := by decide +kernel

theorem test_illFormed_codes : { fix4Params with cmdDisablePwm := 0x13 }.wellFormed = false := by decide +kernel

theorem test_illFormed_hold : { fix4Params with tLatchMin := 10 }.wellFormed = false := by decide +kernel

theorem test_illFormed_payload :
    (Instr.setCalibration true [63, 1]).wellFormed fix4 = false ∧ (Instr.setCalibration true [63, 1, 0]).wellFormed fix4 = true := by
  decide +kernel

/-! ### Decoding (D-E1 to D-E16, and words written out bit by bit from R69) -/

theorem test_decode_hostInit : decodeWord 0x0000000000 [] = .ok .hostInit := by decide
theorem test_decode_setAnodeVoltage : decodeWord 0x100000000C [] = .ok (.setAnodeVoltage 12) := by decide
theorem test_decode_setAll : decodeWord 0x2000001000 [] = .ok (.setAll 4096) := by decide
theorem test_decode_setSymbol : decodeWord 0x3000050FFF [] = .ok (.setSymbol 5 4095) := by decide
theorem test_decode_renderDigit : decodeWord 0x4037010123 [] = .ok (.renderDigit 0x37 1 0x123) := by decide
theorem test_decode_commitFrame : decodeWord 0x5FFFFFFFFF [] = .ok .commitFrame := by decide
theorem test_decode_setCalibration :
    decodeWord 0x6000000000 [0x00, 0x40, 0x00] = .ok (.setCalibration false [0, 64, 0]) := by decide
theorem test_decode_setCalibrationEnabled : decodeWord 0x7800000000 [] = .ok (.setCalibrationEnabled true) := by decide
theorem test_decode_reserved : decodeWord 0x8000000000 [] = .ok (.reserved 0) := by decide
theorem test_decode_unexpected_payload : decodeWord 0x5000000000 [0] = .error .unexpectedPayload := by decide

/-- `OP FLAG --- CHR IDX VAL`, bit by bit: `setSymbol(5, 4095)`, `setAnodeVoltage(12)`, `setCalibration(_, true)`. -/
theorem test_decode_bit_by_bit :
    decodeWord 0b0011_0_000_00000000_00000101_0000111111111111 [] = .ok (.setSymbol 5 4095) ∧
      decodeWord 0b0001_0_000_00000000_00000000_0000000000001100 [] = .ok (.setAnodeVoltage 12) ∧
      decodeWord 0b0110_1_000_00000000_00000000_0000000000000000 [63] = .ok (.setCalibration true [63]) ∧
      decodeWord 0b1111_1_000_11111111_11111111_1111111111111111 [] = .ok (.reserved 7) := by decide

/-- The six codes of the fixtures and a code that is none of them (R63). -/
theorem test_decode_wire :
    decode fix4 (.wire 0b00010011) = .ok .updatePwm ∧ decode fix4 (.wire 0x25) = .ok .enablePwm ∧
      decode fix4 (.wire 0x37) = .ok .disablePwm ∧ decode fix4 (.wire 0x49) = .ok .toggleCorrection ∧
      decode fix4 (.wire 0x5B) = .ok .updateCorrection ∧ decode fix4 (.wire 0x6D) = .ok .togglePhaseShift ∧
      decode fix4 (.wire 0x00) = .error .unknownWireCode := by decide +kernel

theorem test_tableWord : decodeTableWord 40 0x3000050FFF = some (.setSymbol 5 4095) := by decide

/-- `initialize` placed at reset is what the next step runs. -/
theorem test_fetch_initialize : nextIs (fun _ => true) (step (State.reset.withFetchWord 40 0x0000000000)) = true := by
  decide +kernel

/-! ### Tables (D-T1 to D-T6) -/

theorem test_channelMap :
    (List.range 4).map (symbolForChannel fix4) = [some 2, none, some 0, some 1] ∧
      [95, 94, 89, 88, 7, 0].map (symbolForChannel fix96) = [none, some 0, some 5, some 6, none, some 83] := by
  decide +kernel

theorem test_segments :
    segmentSymbols fix96 1 = [some 20, some 21, none, some 23, some 24, some 25, some 26] ∧
      (List.range 7).map (lit fix96 0x37) = [true, true, true, false, false, false, false] ∧
      (List.range 7).map (lit fix96 0x31) = [false, true, true, false, false, false, false] := by decide +kernel

theorem test_glyphs :
    ([0x38, 0x20, 0x00, 0x1F, 0x7F, 0x5A, 0xFF] : List Byte).map (segmentsForCharacter fix96) = [0x7F, 0, 0, 0, 0, 0, 0] := by
  decide +kernel

/-! ### The serializer (D-S1, D-S2, D-S6) -/

theorem test_frame_fix4 :
    sampled false (transmission fix4 0x13 (channelValue fix4 [0x001, 0xABC, 0x800])) =
      msbFirst (0xABC0011300080013 : BitVec 64) := by decide +kernel

theorem test_events_fix4 :
    (transmission fix4 0x13 (channelValue fix4 [0x001, 0xABC, 0x800])).length = 195 ∧
      (transmission fix4 0x13 (channelValue fix4 [0x001, 0xABC, 0x800])).drop 189 =
        [.level .data true, .level .clk true, .level .clk false, .level .data false, .level .latch true,
          .level .latch false] := by decide +kernel

theorem test_frame_fix96 :
    sampled false (transmission fix96 0x13 (channelValue fix96 (List.replicate 84 0xFFF))) =
      msbFirst (0x000FFFFFFFFFFFFFFFFFFFFF000FFFFFFFFFFFFFFFFFFFFF000FFFFFFFFFFFFFFFFFFFFF000FFFFFFFFFFFFFFFFFFFFF000FFFFFFFFFFFFFFFFFFFFF000FFFFFFFFFFFFFFFFFFFFF13000FFFFFFFFFFFFFFFFFFFFF000FFFFFFFFFFFFFFFFFFFFF000FFFFFFFFFFFFFFFFFFFFF000FFFFFFFFFFFFFFFFFFFFF000FFFFFFFFFFFFFFFFFFFFF000FFFFFFFFFFFFFFFFFFFFF13 : BitVec 1168) := by
  decide +kernel

/-! ### The instructions, one step each -/

/-- D-K1 and P1: `initialize` from power-on. -/
theorem test_hostInit :
    nextIs (fun t => decide (t.out.length = 786 ∧ t.fb = [0, 0, 0] ∧ t.cal = [63, 1, 0] ∧ t.calEn = false ∧
        t.initState = .pwmEnabled ∧ t.results = [.ok] ∧
        sampled false t.out =
          msbFirst (0x00000049000000490000006D0000006D0000002500000025040FC05B0000005B : BitVec 256)))
      (step { State.powerOn fix4 [(0x100, 0x3F), (0x101, 0x01)] with
        storeDraws := [true], requests := [.host 0x0000000000 []] }) = true := by decide +kernel

/-- R171: both chips after it, correction off, phase shift on, PWM enabled. -/
theorem test_hostInit_chips :
    nextIs (fun t => decide (t.chips.chip1.correction = false ∧ t.chips.chip2.correction = false ∧
        t.chips.chip1.phaseShift = true ∧ t.chips.chip2.pwm = true ∧ t.chips.chip2.corr = [0xFC0, 0x040]))
      (exec .hostInit { State.powerOn fix4 [(0x100, 0x3F), (0x101, 0x01)] with storeDraws := [true] }) = true := by
  decide +kernel

/-- D-K5, D-K7. -/
theorem test_setAnodeVoltage :
    nextIs (fun t => decide (t.out = [.pwm .anode (.duty 96)] ∧ t.results = [.ok]))
      (exec (.setAnodeVoltage 12) (ready96 0)) = true := by decide +kernel

theorem test_setAnodeVoltage_range :
    nextIs (fun t => decide (t.out = [] ∧ t.results = [.err .outOfRange])) (exec (.setAnodeVoltage 31) (ready96 0)) = true := by
  decide +kernel

/-- D-F1, D-F2. -/
theorem test_setAll :
    nextIs (fun t => decide (t.fb = List.replicate 84 0xFFF ∧ t.results = [.ok])) (exec (.setAll 4095) (ready96 0)) = true := by
  decide +kernel

theorem test_setAll_range :
    nextIs (fun t => decide (t.fb = List.replicate 84 0xFFF ∧ t.results = [.err .outOfRange]))
      (exec (.setAll 4096) (ready96 0xFFF)) = true := by decide +kernel

/-- D-F4, D-F7. -/
theorem test_setSymbol :
    nextIs (fun t => decide (t.fb = List.replicate 83 0 ++ [1])) (exec (.setSymbol 83 1) (ready96 0)) = true := by
  decide +kernel

theorem test_setSymbol_value_first :
    nextIs (fun t => decide (t.results = [.err .outOfRange])) (exec (.setSymbol 84 5000) (ready96 0)) = true := by
  decide +kernel

/-- D-F11, D-F15. -/
theorem test_renderDigit :
    nextIs (fun t => decide (t.fb = List.replicate 20 0x111 ++ [0x123, 0x123, 0x111, 0, 0, 0, 0] ++ List.replicate 57 0x111))
      (exec (.renderDigit 0x37 1 0x123) (ready96 0x111)) = true := by decide +kernel

theorem test_renderDigit_index_before_value :
    nextIs (fun t => decide (t.results = [.err .invalidIndex])) (exec (.renderDigit 0x38 2 5000) (ready96 0)) = true := by
  decide +kernel

/-- D-K9. -/
theorem test_commitFrame :
    nextIs (fun t => decide (sampled false t.out = msbFirst (0xABC0011300080013 : BitVec 64) ∧ t.fb = [1, 0xABC, 0x800]))
      (exec .commitFrame (ready fix4 [1, 0xABC, 0x800])) = true := by decide +kernel

/-- D-K4. -/
theorem test_commitFrame_refused : refusedAs .notInitialized (exec .commitFrame (State.powerOn fix4 [])) = true := by
  decide +kernel

/-- D-C2. -/
theorem test_setCalibration :
    nextIs (fun t => decide (t.cal = [63, 1, 0] ∧ t.ps = [(0x100, 0x3F), (0x101, 0x01)] ∧ t.results = [.ok] ∧
        t.out.head? = some (.nvWrite 0x100 [0x3F, 0x01, 0x00]) ∧
        sampled false t.out = msbFirst (0x040FC05B0000005B : BitVec 64)))
      (exec (.setCalibration true [63, 1, 0]) { ready4 with storeDraws := [true] }) = true := by decide +kernel

/-- D-C5. -/
theorem test_setCalibration_last_entry :
    nextIs (fun t => decide (t.cal = [0, 0, 0] ∧ t.out = [] ∧ t.results = [.err .outOfRange]))
      (exec (.setCalibration false [0, 0, 255]) ready4) = true := by decide +kernel

/-- D-C9, D-C11. -/
theorem test_setCalibrationEnabled_same :
    nextIs (fun t => decide (t.out = [] ∧ t.calEn = true ∧ t.results = [.ok]))
      (exec (.setCalibrationEnabled true) { ready4 with calEn := true }) = true := by decide +kernel

theorem test_setCalibrationEnabled_off :
    nextIs (fun t => decide (sampled false t.out = msbFirst (0x0000004900080049 : BitVec 64) ∧ t.calEn = false))
      (exec (.setCalibrationEnabled false) { ready fix4 [0, 0, 0x800] with calEn := true }) = true := by decide +kernel

/-- D-W1. -/
theorem test_updatePwm :
    nextIs (fun t => decide (sampled false t.out = msbFirst (0x0000001300000013 : BitVec 64) ∧ t.results = []))
      (exec .updatePwm ready4) = true := by decide +kernel

/-- D-W2. -/
theorem test_enablePwm :
    nextIs (fun t => decide (sampled false t.out = msbFirst (0x0000002500000025 : BitVec 64) ∧ t.chips.chip1.pwm = true))
      (exec .enablePwm ready4) = true := by decide +kernel

/-- A bare wire command before `initialize` (R170). -/
theorem test_updatePwm_refused : refusedAs .notInitialized (exec .updatePwm (State.powerOn fix4 [])) = true := by
  decide +kernel

/-- D-W3. -/
theorem test_disablePwm : refusedAs .disablePwmNeverSent (exec .disablePwm ready4) = true := by decide +kernel

/-- D-W4. -/
theorem test_toggleCorrection :
    nextIs (fun t => decide (sampled false t.out = msbFirst (0x0000004900000049 : BitVec 64) ∧
        t.chips.chip2.correction = false ∧ t.calEn = false))
      (exec .toggleCorrection ready4) = true := by decide +kernel

/-- D-W5. -/
theorem test_updateCorrection :
    nextIs (fun t => decide (sampled false t.out = msbFirst (0x040FC05B0000005B : BitVec 64)))
      (exec .updateCorrection { ready4 with cal := [63, 1, 0] }) = true := by decide +kernel

/-- D-W6. -/
theorem test_togglePhaseShift :
    nextIs (fun t => decide (sampled false t.out = msbFirst (0x0000006D0000006D : BitVec 64) ∧ t.chips.chip1.phaseShift = true))
      (exec .togglePhaseShift ready4) = true := by decide +kernel

/-- D-E15: no effect and `IllegalRequest`, here before `initialize`. -/
theorem test_reserved :
    nextIs (fun t => decide (t.out = [] ∧ t.results = [.err .illegalRequest]))
      (step { State.powerOn fix4 [] with requests := [.host 0xF8FFFFFFFF []] }) = true := by decide +kernel

/-! ### Witnesses: every obligation's hypotheses can be met -/

/-- SelectorTableDecode: the selectors 0 to 7, the least and the greatest reserved one, and a word that takes no payload. -/
theorem test_witness_SelectorTableDecode :
    ([0x0000000000, 0x1000000000, 0x2000000000, 0x3000000000, 0x4000000000, 0x5000000000, 0x6000000000, 0x7000000000,
      0x8000000000, 0xF000000000] : List ReqWord).map (fun w => (w.extractLsb' 36 4).toNat) =
      [0, 1, 2, 3, 4, 5, 6, 7, 8, 15] ∧ ([0] : List Byte) ≠ [] := by decide

/-- WireCodesDecode: a value that is none of the six codes. -/
theorem test_witness_WireCodesDecode : ∀ w : WireCommand, (0x00 : Byte) ≠ fix4.code w := by
  intro w
  cases w <;> decide

/-- StepRunsTheDecodedRequest: a request that decodes and two that do not. -/
theorem test_witness_StepRunsTheDecodedRequest :
    { ready4 with requests := [.host 0x5000000000 []] }.requests = .host 0x5000000000 [] :: [] ∧
      decode fix4 (.host 0x5000000000 []) = .ok .commitFrame ∧
      decode fix4 (.host 0x5000000000 [1]) = .error .unexpectedPayload ∧
      decode fix4 (.wire 0xFF) = .error .unknownWireCode := by decide +kernel

theorem test_witness_IdleStepChangesNothing : ready4.requests = [] := by decide +kernel

/-- OperationsBeforeInitializeRefused: power-on, and the last state before the block is ready. -/
theorem test_witness_OperationsBeforeInitializeRefused :
    ¬ (State.powerOn fix4 []).Ready ∧ ¬ { ready4 with initState := .phaseShiftEnabled }.Ready := by decide +kernel

/-- OneResultPerOperation: a host operation and a wire command. -/
theorem test_witness_OneResultPerOperation :
    (∃ t, exec .commitFrame ready4 = .next t ∧ isHostOperation .commitFrame = true) ∧
      ∃ t, exec .updatePwm ready4 = .next t ∧ isHostOperation .updatePwm = false :=
  ⟨exists_next (by decide +kernel), exists_next (by decide +kernel)⟩

/-- SetAllEffect: both clauses where they meet. -/
theorem test_witness_SetAllEffect :
    ready4.Ready ∧ (4095 : Operand).toNat ≤ 4095 ∧ 4095 < (4096 : Operand).toNat := by decide +kernel

/-- SetSymbolEffect: each clause where they meet. -/
theorem test_witness_SetSymbolEffect :
    ready4.Ready ∧ ((4095 : Operand).toNat ≤ 4095 ∧ (2 : Byte).toNat < ready4.cfg.symbolCount) ∧
      4095 < (4096 : Operand).toNat ∧ ready4.cfg.symbolCount ≤ (3 : Byte).toNat := by decide +kernel

theorem test_witness_SetSymbolReadsBack :
    ready4.Ready ∧ ready4.Sized ∧ (4095 : Operand).toNat ≤ 4095 ∧ (2 : Byte).toNat < ready4.cfg.symbolCount ∧
      0 ≠ (2 : Byte).toNat := by decide +kernel

/-- RenderDigitSetsSevenSegments: the last digit; the last slot of it; a symbol in no slot; and, with a shared symbol, the
later of its two slots. -/
theorem test_witness_RenderDigitSetsSevenSegments :
    (ready96 0).Ready ∧ (ready96 0).Sized ∧ (1 : Byte).toNat < fix96.digitCount ∧ (4095 : Operand).toNat ≤ 4095 ∧
      segmentSymbol fix96 1 6 = some 26 ∧ (∀ i, i < 7 → segmentSymbol fix96 1 i ≠ some 22) ∧
      segmentSymbol fixShared 0 0 = some 0 ∧ segmentSymbol fixShared 0 2 = some 0 ∧
      (∀ i, i < 7 → 2 < i → segmentSymbol fixShared 0 i ≠ some 0) := by decide +kernel

/-- RenderDigitErrorsInOrder: no digits; the first digit too many; the first value too large. -/
theorem test_witness_RenderDigitErrorsInOrder :
    (ready4.Ready ∧ ready4.cfg.digitCount = 0) ∧
      (ready96 0).Ready ∧ 0 < fix96.digitCount ∧ fix96.digitCount ≤ (2 : Byte).toNat ∧
      (1 : Byte).toNat < fix96.digitCount ∧ 4095 < (4096 : Operand).toNat := by decide +kernel

/-- GlyphEightLightsAndSpaceBlanks: `'8'`; space, 0x7F and the last control character; a connected slot. -/
theorem test_witness_GlyphEightLightsAndSpaceBlanks :
    (ready96 0).Ready ∧ (ready96 0).Sized ∧ (1 : Byte).toNat < fix96.digitCount ∧ (4095 : Operand).toNat ≤ 4095 ∧
      (0x1F : Byte).toNat < 0x20 ∧ segmentSymbol fix96 1 0 = some 20 := by decide +kernel

theorem test_witness_FrameOperationsAreInMemoryOnly :
    (∃ t, exec (.setAll 1) ready4 = .next t ∧ True) ∧ (∃ t, exec (.setSymbol 0 1) ready4 = .next t ∧ True) ∧
      ∃ t, exec (.renderDigit 0x38 0 1) (ready96 0) = .next t ∧ True :=
  ⟨exists_next (by decide +kernel), exists_next (by decide +kernel), exists_next (by decide +kernel)⟩

theorem test_witness_TableLookupsInRange :
    symbolForChannel fix4 0 = some 2 ∧ segmentSymbol fix96 0 6 = some 16 := by decide +kernel

/-- ChannelValueFromItsSymbol: a connected and an unconnected channel; two value lists equal on all connected symbols. -/
theorem test_witness_ChannelValueFromItsSymbol :
    symbolForChannel fix4 3 = some 1 ∧ symbolForChannel fix4 1 = none ∧
      ∀ ch, ch < 4 → ∀ i, i < 3 → symbolForChannel fix4 ch = some i →
        ([1, 2, 3] : List Drive).getD i 0 = [1, 2, 3, 4].getD i 0 := by decide +kernel

/-- FrameLayoutBitByBit: the first and last bit time of each clause. -/
theorem test_witness_FrameLayoutBitByBit :
    23 < 12 * fix4.bank ∧ (12 * fix4.bank ≤ 24 ∧ 31 < 12 * fix4.bank + 8) ∧
      (12 * fix4.bank + 8 ≤ 32 ∧ 55 < 24 * fix4.bank + 8) ∧ (24 * fix4.bank + 8 ≤ 56 ∧ 63 < 24 * fix4.bank + 16) ∧
      24 * fix4.bank + 16 ≤ 64 ∧ (fix4.bank ≤ 3 ∧ 3 < fix4.channelCount) ∧ fix4.bank ≤ 2 ∧ 1 < fix4.bank := by decide +kernel

theorem test_witness_ReceiverReadsBackTheFrame : 1 < fix4.bank := by decide +kernel

theorem test_witness_TransmissionCounts : fix96.channelCount = 96 := by decide +kernel

/-- LineOrderWithinATransmission: the first data level, a later one, a rising clock and the rising latch. -/
theorem test_witness_LineOrderWithinATransmission :
    let evs := transmission fix4 0x13 (channelValue fix4 [0, 0, 0])
    evs = [] ++ .level .data false :: evs.drop 1 ∧ evs = evs.take 3 ++ .level .data false :: evs.drop 4 ∧
      evs = evs.take 1 ++ .level .clk true :: evs.drop 2 ∧ evs = evs.take 193 ++ .level .latch true :: evs.drop 194 := by
  decide +kernel

theorem test_witness_ClockEdgesAreRealAndLinesEndLow :
    let evs := transmission fix4 (fix4.code .updatePwm) (channelValue fix4 [0, 0, 0])
    ready4.clk = false ∧ evs = evs.take 190 ++ .level .clk true :: evs.drop 191 := by decide +kernel

theorem test_witness_CalibrationExpansion :
    5 < 6 ∧ { ready4 with cal := [63, 1, 0] }.cal[2]? = some 0 := by decide +kernel

theorem test_witness_SetCalibrationEffect :
    ready4.Ready ∧ [(63 : Byte), 1, 0].length = ready4.cfg.symbolCount ∧ ∀ v ∈ [(63 : Byte), 1, 0], v.toNat ≤ 63 := by
  decide +kernel

/-- SetCalibrationWritesTheImage: a write that succeeds; the addresses just below and just above the image. -/
theorem test_witness_SetCalibrationWritesTheImage :
    ∃ t, exec (.setCalibration true [63, 1, 0]) { ready4 with storeDraws := [true] } = .next t ∧
      ({ ready4 with storeDraws := [true] }.Ready ∧ Memory.wf ready4.ps = true ∧
        [(63 : Byte), 1, 0].length = ready4.cfg.symbolCount ∧ (∀ v ∈ [(63 : Byte), 1, 0], v.toNat ≤ 63) ∧
        { ready4 with storeDraws := [true] }.storeOk = true ∧ 0xFF < ready4.cfg.calAddr ∧
        ready4.cfg.calAddr + ready4.cfg.symbolCount ≤ 0x103 ∧ [(63 : Byte), 1, 0][2]? = some 0) :=
  exists_next (by decide +kernel)

/-- SetCalibrationChecksEveryEntry: the first value too large, as the last entry. -/
theorem test_witness_SetCalibrationChecksEveryEntry :
    ready4.Ready ∧ [(0 : Byte), 0, 64].length = ready4.cfg.symbolCount ∧ ∃ v ∈ [(0 : Byte), 0, 64], 63 < v.toNat := by
  decide +kernel

/-- WrongPayloadLengthRefused: one entry too few and one too many. -/
theorem test_witness_WrongPayloadLengthRefused :
    ready4.Ready ∧ [(0 : Byte), 0].length ≠ ready4.cfg.symbolCount ∧ [(0 : Byte), 0, 0, 0].length ≠ ready4.cfg.symbolCount := by
  decide +kernel

/-- CalibrationRoundTrip: a write that returns `Ok`, with the coming read settled. -/
theorem test_witness_CalibrationRoundTrip :
    ∃ t, exec (.setCalibration true [63, 1, 0]) { ready4 with storeDraws := [true, true] } = .next t ∧
      ({ ready4 with storeDraws := [true, true] }.Ready ∧ Memory.wf ready4.ps = true ∧
        [(63 : Byte), 1, 0].length = ready4.cfg.symbolCount ∧ (∀ v ∈ [(63 : Byte), 1, 0], v.toNat ≤ 63) ∧
        t.results = ready4.results ++ [.ok] ∧ t.storeDraws = true :: []) :=
  exists_next (by decide +kernel)

/-- CalibrationEnableEffect: agreement and difference. -/
theorem test_witness_CalibrationEnableEffect : ready4.Ready ∧ false = ready4.calEn ∧ true ≠ ready4.calEn := by decide +kernel

theorem test_witness_EnablingTwiceTogglesOnce : ready4.Ready ∧ ready4.calEn = false := by decide +kernel

theorem test_witness_CommitFrameSendsTheSnapshot : (ready fix4 [1, 0xABC, 0x800]).Ready := by decide +kernel

theorem test_witness_BlankSetOneCommitShowsOneSymbol :
    (ready96 0).Ready ∧ (4095 : Operand).toNat ≤ 4095 ∧ (83 : Byte).toNat < (ready96 0).cfg.symbolCount := by decide +kernel

/-- SetAnodeVoltageEffect: the greatest voltage and the first one too large. -/
theorem test_witness_SetAnodeVoltageEffect :
    ready4.Ready ∧ (30 : Operand).toNat ≤ ready4.cfg.maxVoltage ∧ ready4.cfg.maxVoltage < (31 : Operand).toNat := by
  decide +kernel

/-- InitializeEffect: a settled outcome of either kind; a stored byte of 63, and one above it. -/
theorem test_witness_InitializeEffect :
    { ready4 with storeDraws := [true] }.storeDraws = true :: [] ∧
      { ready4 with storeDraws := [false] }.storeDraws = false :: [] ∧
      2 < ready4.cfg.symbolCount ∧ (Memory.read [(0x100, 0x3F), (0x101, 0x40)] 0x100).toNat ≤ 63 ∧
      ¬ (Memory.read [(0x100, 0x3F), (0x101, 0x40)] 0x101).toNat ≤ 63 := by decide +kernel

theorem test_witness_InitializeEventCount :
    (∃ t, exec .hostInit (State.powerOn fix4 []) = .next t ∧ True) ∧ (State.powerOn fix96 []).cfg.channelCount = 96 :=
  ⟨exists_next (by decide +kernel), by decide +kernel⟩

/-- WireCommandsSendWholeFrames: each of the five commands, in a ready state whose `FB` and `CAL` differ. -/
theorem test_witness_WireCommandsSendWholeFrames :
    let s := { ready fix4 [1, 0xABC, 0x800] with cal := [63, 1, 0] }
    s.Ready ∧
      (Instr.updatePwm = .updatePwm ∧ (0x13 : Byte) = s.cfg.cmdUpdatePwm ∧ [(1 : Drive), 0xABC, 0x800] = s.fb) ∧
      (Instr.toggleCorrection = .toggleCorrection ∧ (0x49 : Byte) = s.cfg.cmdToggleCorrection ∧
        [(1 : Drive), 0xABC, 0x800] = s.fb) ∧
      (Instr.updateCorrection = .updateCorrection ∧ (0x5B : Byte) = s.cfg.cmdUpdateCorrection ∧
        [(0xFC0 : Drive), 0x040, 0] = s.cal.map expand) ∧
      (Instr.enablePwm = .enablePwm ∧ (0x25 : Byte) = s.cfg.cmdEnablePwm ∧ [(1 : Drive), 0xABC, 0x800] = s.fb) ∧
      (Instr.togglePhaseShift = .togglePhaseShift ∧ (0x6D : Byte) = s.cfg.cmdTogglePhaseShift ∧
        [(1 : Drive), 0xABC, 0x800] = s.fb) := by decide +kernel

/-- WireCommandsBeforeInitializeRefused: power-on, and the last state before the block is ready. -/
theorem test_witness_WireCommandsBeforeInitializeRefused :
    ¬ (State.powerOn fix4 []).Ready ∧ ¬ { ready4 with initState := .phaseShiftEnabled }.Ready := by decide +kernel

theorem test_witness_DisablePwmIsNeverSent :
    WireCommand.enablePwm ≠ .disablePwm ∧ ∃ t, exec .commitFrame ready4 = .next t ∧
      ((0x13, 0x13) ∈ (Monitor.start.after fix4 t.out).sent) :=
  ⟨by decide, exists_next (by decide +kernel)⟩

/-- UpdatePwmReachesEveryChannel, UpdateCorrectionReachesEveryChannel and ChipsAfterFirstInitialize: the last channel of a
bank; with ModeCommandsActAtBothChips and TwoTogglesRestoreCorrection, a ready state. -/
theorem test_witness_ChannelsOfABank : ready4.Ready ∧ 1 < ready4.cfg.bank ∧ 47 < fix96.bank := by decide +kernel

/-- ValidationErrorsChangeNothing: each of the three kinds. -/
theorem test_witness_ValidationErrorsChangeNothing :
    (∃ t, exec (.setAll 4096) ready4 = .next t ∧ t.results = ready4.results ++ [.err .outOfRange]) ∧
      (∃ t, exec (.setSymbol 3 0) ready4 = .next t ∧ t.results = ready4.results ++ [.err .invalidIndex]) ∧
      ∃ t, exec (.renderDigit 0x38 0 0) ready4 = .next t ∧ t.results = ready4.results ++ [.err .unsupportedProduct] :=
  ⟨exists_next (by decide +kernel), exists_next (by decide +kernel), exists_next (by decide +kernel)⟩

theorem test_witness_UnsupportedProductOnlyWithoutDigits :
    ready4.Ready ∧ ready4.cfg.digitCount = 0 ∧ ∃ t, exec (.renderDigit 0x38 0 5000) ready4 = .next t ∧
      t.results = ready4.results ++ [.err .unsupportedProduct] :=
  ⟨by decide +kernel, by decide +kernel, exists_next (by decide +kernel)⟩

/-- PersistenceFailureDoesNotAbort: at `initialize` and at a persisting `setCalibration`. -/
theorem test_witness_PersistenceFailureDoesNotAbort :
    (∃ t, exec .hostInit { State.powerOn fix4 [] with storeDraws := [false] } = .next t ∧
        (t.results = [] ++ [.err .persistenceFailure] ∧
          { State.powerOn fix4 [] with storeDraws := [false] }.storeDraws = false :: [])) ∧
      ∃ t, exec (.setCalibration true [63, 1, 0]) { ready4 with storeDraws := [false] } = .next t ∧
        t.results = [] ++ [.err .persistenceFailure] :=
  ⟨exists_next (by decide +kernel), exists_next (by decide +kernel)⟩

/-- WritersOfEachRegister: each register does change somewhere. -/
theorem test_witness_WritersOfEachRegister :
    (∃ t, exec (.setSymbol 0 1) ready4 = .next t ∧ t.fb ≠ ready4.fb) ∧
      (∃ t, exec (.setCalibration true [63, 1, 0]) { ready4 with storeDraws := [true] } = .next t ∧
        (t.cal ≠ ready4.cal ∧ t.ps ≠ ready4.ps)) ∧
      (∃ t, exec (.setCalibrationEnabled true) ready4 = .next t ∧ t.calEn ≠ ready4.calEn) ∧
      (∃ t, exec .hostInit (State.powerOn fix4 []) = .next t ∧
        (t.initState ≠ (State.powerOn fix4 []).initState ∧ t.chipClk ≠ (State.powerOn fix4 []).chipClk)) ∧
      ∃ t, exec (.setAnodeVoltage 12) ready4 = .next t ∧ t.anode ≠ ready4.anode :=
  ⟨exists_next (by decide +kernel), exists_next (by decide +kernel), exists_next (by decide +kernel),
    exists_next (by decide +kernel), exists_next (by decide +kernel)⟩

/-- NoOperationWritesTheTables and OutputIsOnlyAppended: an answering instruction that has output. -/
theorem test_witness_AnsweringInstruction : ∃ t, exec .commitFrame ready4 = .next t ∧ t.out ≠ ready4.out :=
  exists_next (by decide +kernel)

/-- StepKeepsTheInvariant: a good state with a request pending. -/
theorem test_witness_StepKeepsTheInvariant :
    ∃ t, step { ready4 with requests := [.host 0x3000020800 []] } = .next t ∧
      ({ ready4 with requests := [.host 0x3000020800 []] }.Inv ∧ t.fb = [0, 0, 0x800]) :=
  exists_next (by decide +kernel)

/-- StepKeepsTheMirrorOverOut: a state that mirrors its output with a host request pending. -/
theorem test_witness_StepKeepsTheMirrorOverOut :
    ∃ t, step { State.powerOn fix4 [] with requests := [.host 0x0000000000 []] } = .next t ∧
      ({ State.powerOn fix4 [] with requests := [.host 0x0000000000 []] }.MirrorsOut ∧ t.MirrorsOut ∧ t.Ready) :=
  exists_next (by decide +kernel)

theorem test_witness_StepKeepsTheMirrorOverOut_head (code : Byte) :
    { State.powerOn fix4 [] with requests := [.host 0x0000000000 []] }.requests.head? ≠ some (.wire code) := by
  simp

/-- OperationsKeepTheMirrorAtTheChips: `initialize` from power-on, and an enable in a ready state that mirrors. -/
theorem test_witness_OperationsKeepTheMirrorAtTheChips :
    (∃ t, exec .hostInit (State.powerOn fix4 []) = .next t ∧
        (isHostOperation .hostInit = true ∧ (State.powerOn fix4 []).MirrorsChips ∧
          (State.powerOn fix4 []).chips.fresh = true ∧ (State.powerOn fix4 []).chips.chip1.correction = true ∧
          (State.powerOn fix4 []).chips.chip2.correction = true)) ∧
      ∃ t, exec (.setCalibrationEnabled false) { ready4 with calEn := true } = .next t ∧
        ({ ready4 with calEn := true }.MirrorsChips ∧ t.chips.chip1.correction = false) :=
  ⟨exists_next (by decide +kernel), exists_next (by decide +kernel)⟩

end Sys2Proof.Tests
end

section
/-! The step on a pending request (spec/00_scope.md R11): one equation for each answer of the decoder. -/

namespace Sys2Proof.Machine

variable {s : State} {r : Request} {rest : List Request}

/-- The request is consumed before its instruction runs (R52). -/
theorem step_of_decode_ok {i : Instr} (hreq : s.requests = r :: rest) (hdec : decode s.cfg r = .ok i) :
    step s = exec i { s with requests := rest } := by
  simp only [step, hreq, hdec]

/-- The decoder's own name of the failure is the name of the refusal (entries 11, 14). -/
theorem step_of_decode_error {why : DecodeError} (hreq : s.requests = r :: rest)
    (hdec : decode s.cfg r = .error why) : step s = .refused (.undecodable why) := by
  simp only [step, hreq, hdec]

end Sys2Proof.Machine

namespace Sys2Proof.Proofs

open Sys2Proof.Machine

/-- Settles O6: one equation of `step` for each answer of the decoder. -/
theorem stepRunsTheDecodedRequest : Obligations.StepRunsTheDecodedRequest :=
  fun _ _ _ hreq => ⟨fun _ hdec => step_of_decode_ok hreq hdec, fun _ hdec => step_of_decode_error hreq hdec⟩

end Sys2Proof.Proofs
end

section
/-! What a step and an instruction that answers can do, said once: `step_next` for the step, `exec_answer` for the
fifteen instructions. Every proof about all instructions is a case split over `Answer`. -/

namespace Sys2Proof.Machine

/-! ### The parts of `hostInit` and of a calibration -/

section BlankAndProgram
variable (s : State)

@[simp] theorem State.blankAndProgram_cfg : s.blankAndProgram.cfg = s.cfg := by simp [State.blankAndProgram]
@[simp] theorem State.blankAndProgram_fb : s.blankAndProgram.fb = List.replicate s.cfg.symbolCount 0 := by
  simp [State.blankAndProgram]
@[simp] theorem State.blankAndProgram_out : s.blankAndProgram.out =
    s.out ++ [.pwm .anode (.setup s.cfg.pwmAnode), .pwm .chipClk (.setup s.cfg.pwmChipClk)] := by
  simp [State.blankAndProgram]
@[simp] theorem State.blankAndProgram_results : s.blankAndProgram.results = s.results := by
  simp [State.blankAndProgram]
@[simp] theorem State.blankAndProgram_ps : s.blankAndProgram.ps = s.ps := by simp [State.blankAndProgram]
@[simp] theorem State.blankAndProgram_chips : s.blankAndProgram.chips = s.chips := by simp [State.blankAndProgram]
@[simp] theorem State.blankAndProgram_requests : s.blankAndProgram.requests = s.requests := by
  simp [State.blankAndProgram]
@[simp] theorem State.blankAndProgram_storeDraws : s.blankAndProgram.storeDraws = s.storeDraws := by
  simp [State.blankAndProgram]

end BlankAndProgram

/-- The events of the reset hold (R131). -/
def holdEvents (c : Config) : List Event := [.level .latch true, .delay c.resetHoldMs, .level .latch false]

/-- The four transitions written out (R131, R132). -/
theorem State.resetSequence_eq (s : State) : s.resetSequence =
    (((((((s.setInitState .unreset).resetHold.setInitState .latched).transmit .toggleCorrection s.fb).setCalEn
      false).setInitState .correctionDisabled).transmit .togglePhaseShift s.fb).setInitState
        .phaseShiftEnabled |>.transmit .enablePwm s.fb).setInitState .pwmEnabled := by
  simp [State.resetSequence, State.toLatched, State.toCorrectionDisabled, State.toPhaseShiftEnabled,
    State.toPwmEnabled, State.snapshot]

section ResetSequence
variable (s : State)

@[simp] theorem State.resetSequence_cfg : s.resetSequence.cfg = s.cfg := by simp [State.resetSequence_eq]
@[simp] theorem State.resetSequence_fb : s.resetSequence.fb = s.fb := by simp [State.resetSequence_eq]
@[simp] theorem State.resetSequence_calEn : s.resetSequence.calEn = false := by simp [State.resetSequence_eq]
@[simp] theorem State.resetSequence_initState : s.resetSequence.initState = .pwmEnabled := rfl
@[simp] theorem State.resetSequence_results : s.resetSequence.results = s.results := by
  simp [State.resetSequence_eq]
@[simp] theorem State.resetSequence_ps : s.resetSequence.ps = s.ps := by simp [State.resetSequence_eq]
@[simp] theorem State.resetSequence_requests : s.resetSequence.requests = s.requests := by
  simp [State.resetSequence_eq]
@[simp] theorem State.resetSequence_storeDraws : s.resetSequence.storeDraws = s.storeDraws := by
  simp [State.resetSequence_eq]

/-- The hold, then one frame for each of the three mode commands (R131). -/
@[simp] theorem State.resetSequence_out : s.resetSequence.out =
    s.out ++ holdEvents s.cfg ++
      transmission s.cfg (s.cfg.code .toggleCorrection) (channelValue s.cfg s.fb) ++
      transmission s.cfg (s.cfg.code .togglePhaseShift) (channelValue s.cfg s.fb) ++
      transmission s.cfg (s.cfg.code .enablePwm) (channelValue s.cfg s.fb) := by
  simp [State.resetSequence_eq, holdEvents]

end ResetSequence

@[simp] theorem State.loadFromPersistent_cfg (s : State) : s.loadFromPersistent.2.cfg = s.cfg := rfl
@[simp] theorem State.loadFromPersistent_fb (s : State) : s.loadFromPersistent.2.fb = s.fb := rfl
@[simp] theorem State.loadFromPersistent_calEn (s : State) : s.loadFromPersistent.2.calEn = s.calEn := rfl
@[simp] theorem State.loadFromPersistent_initState (s : State) :
    s.loadFromPersistent.2.initState = s.initState := rfl
@[simp] theorem State.loadFromPersistent_out (s : State) :
    s.loadFromPersistent.2.out = s.out ++ [.nvRead s.cfg.calAddr s.cfg.symbolCount] := rfl
@[simp] theorem State.loadFromPersistent_results (s : State) : s.loadFromPersistent.2.results = s.results := rfl
@[simp] theorem State.loadFromPersistent_ps (s : State) : s.loadFromPersistent.2.ps = s.ps := rfl
@[simp] theorem State.loadFromPersistent_requests (s : State) :
    s.loadFromPersistent.2.requests = s.requests := rfl
@[simp] theorem State.loadFromPersistent_chips (s : State) : s.loadFromPersistent.2.chips = s.chips := rfl

/-- Where `CAL` comes from at a load: the bytes read, or after a failure nothing but free values (R103, U7). -/
theorem State.loadFromPersistent_cal (s : State) : s.loadFromPersistent.2.cal =
    calLoaded s.cfg.symbolCount (s.draws + 1)
      (if s.storeOk then some (Memory.readBytes s.ps s.cfg.calAddr s.cfg.symbolCount) else none) := rfl

/-- The events of the store write of `setCalibration` (R101). -/
def persistEvents (persist : Bool) (s : State) : List Event :=
  if persist then [.nvWrite s.cfg.calAddr s.calImage] else []

section PersistCal
variable (persist : Bool) (s : State)

@[simp] theorem State.persistCal_cfg : (s.persistCal persist).2.cfg = s.cfg := by cases persist <;> rfl
@[simp] theorem State.persistCal_fb : (s.persistCal persist).2.fb = s.fb := by cases persist <;> rfl
@[simp] theorem State.persistCal_cal : (s.persistCal persist).2.cal = s.cal := by cases persist <;> rfl
@[simp] theorem State.persistCal_calEn : (s.persistCal persist).2.calEn = s.calEn := by cases persist <;> rfl
@[simp] theorem State.persistCal_initState : (s.persistCal persist).2.initState = s.initState := by
  cases persist <;> rfl
@[simp] theorem State.persistCal_out : (s.persistCal persist).2.out = s.out ++ persistEvents persist s := by
  cases persist <;> simp [persistEvents, State.persistCal, State.memWrite]
@[simp] theorem State.persistCal_results : (s.persistCal persist).2.results = s.results := by cases persist <;> rfl
@[simp] theorem State.persistCal_anode : (s.persistCal persist).2.anode = s.anode := by cases persist <;> rfl
@[simp] theorem State.persistCal_chipClk : (s.persistCal persist).2.chipClk = s.chipClk := by cases persist <;> rfl
@[simp] theorem State.persistCal_chips : (s.persistCal persist).2.chips = s.chips := by cases persist <;> rfl
@[simp] theorem State.persistCal_requests : (s.persistCal persist).2.requests = s.requests := by
  cases persist <;> rfl

end PersistCal

/-- The common end of `hostInit` and of `setCalibration`: the update-correction frame, then the result of the store
access (R101, R130, R154). -/
@[simp] def State.sendCorrection (r : Bool × State) : State :=
  (r.2.transmit .updateCorrection r.2.expandAll).withResult (storeResult r.1)

/-- `hostInit` answers in every state (R130). -/
theorem exec_hostInit (s : State) :
    exec .hostInit s = .next (State.sendCorrection s.blankAndProgram.resetSequence.loadFromPersistent) := rfl

/-- The narrowed entries of a calibration payload (R74, R101). -/
abbrev calEntries (values : List Byte) : List CalVal := values.map (BitVec.setWidth 6)

/-- `setCalibration` of a valid array (R101). -/
theorem exec_setCalibration {s : State} {persist : Bool} {values : List Byte} (hready : s.Ready)
    (hlen : values.length = s.cfg.symbolCount) (hval : ∀ v ∈ values, v.toNat ≤ 63) :
    exec (.setCalibration persist values) s =
      .next (State.sendCorrection ((s.setCal (calEntries values)).persistCal persist)) := by
  show execSetCalibration persist values s = _
  rw [execSetCalibration, State.guarded_ready hready, if_neg (not_not.mpr hlen), calOperands_of_le hval]
  rfl

/-! ### Every answer -/

/-- The operations that write `FB` and nothing else (R90 to R92, R94). -/
abbrev WritesFrame (i : Instr) : Prop :=
  (∃ v, i = .setAll v) ∨ (∃ k v, i = .setSymbol k v) ∨ ∃ ch d v, i = .renderDigit ch d v

/-- What an instruction can answer in state `s`: one constructor for each way to complete. -/
inductive Answer (s : State) : Instr → State → Prop
  /-- `hostInit`, in every state (R130, R137). -/
  | boot : Answer s .hostInit (State.sendCorrection s.blankAndProgram.resetSequence.loadFromPersistent)
  /-- An error of the operand checks, or a reserved selector (R155, R73a). Neither is a store failure (R154), and only
  `renderDigit` on a product without digits is unsupported (R153). -/
  | rejected {i : Instr} {k : ErrorKind} (hi : isHostOperation i = true) (hk : k ≠ .persistenceFailure)
      (hdigits : k = .unsupportedProduct → s.cfg.digitCount = 0 ∧ ∃ ch d v, i = .renderDigit ch d v) :
      Answer s i (s.withResult (.err k))
  /-- `setAnodeVoltage` (R133). -/
  | voltage {v : Operand} {d : Rat} (hready : s.Ready) :
      Answer s (.setAnodeVoltage v) ((s.pwmProgram .anode (.duty d)).withResult .ok)
  /-- A write of the frame buffer, which keeps its size (R20). -/
  | frame {i : Instr} {fb : List Drive} (hready : s.Ready) (hi : WritesFrame i)
      (hlen : s.fb.length = s.cfg.symbolCount → fb.length = s.cfg.symbolCount) :
      Answer s i ((s.setFb fb).withResult .ok)
  /-- `commitFrame` (R134). -/
  | commit (hready : s.Ready) : Answer s .commitFrame ((s.transmit .updatePwm s.snapshot).withResult .ok)
  /-- `setCalibration` of a valid array (R101). -/
  | calibrate {persist : Bool} {values : List Byte} (hready : s.Ready) (hlen : values.length = s.cfg.symbolCount)
      (hval : ∀ v ∈ values, v.toNat ≤ 63) :
      Answer s (.setCalibration persist values)
        (State.sendCorrection ((s.setCal (calEntries values)).persistCal persist))
  /-- `setCalibrationEnabled` with nothing to change (R104). -/
  | agreed (hready : s.Ready) : Answer s (.setCalibrationEnabled s.calEn) (s.withResult .ok)
  /-- `setCalibrationEnabled` with a change (R104). -/
  | toggled {enable : Bool} (hready : s.Ready) (hne : enable ≠ s.calEn) :
      Answer s (.setCalibrationEnabled enable)
        (((s.transmit .toggleCorrection s.snapshot).setCalEn enable).withResult .ok)
  /-- A bare wire command (R118, entry 11). -/
  | bare {w : WireCommand} {values : List Drive} (hready : s.Ready) (hw : w ≠ .disablePwm) :
      Answer s w.instr (s.transmit w values)

/-- A digit drawn writes registers and adds or drops none (R20, R92). -/
theorem length_drawDigit (c : Config) (char : Byte) (d : Nat) (v : Drive) (fb : List Drive) :
    (drawDigit c char d v fb).length = fb.length := by
  unfold drawDigit
  induction decodeGlyph c char d generalizing fb with
  | nil => rfl
  | cons slot rest ih =>
    rw [List.foldl_cons, ih]
    unfold writeSegment
    split
    · exact List.length_set
    · rfl

/-- The entries that pass the range check (R101, R102). -/
theorem calOperands_eq_some {values : List Byte} {entries : List CalVal} (h : calOperands values = some entries) :
    (∀ v ∈ values, v.toNat ≤ 63) ∧ entries = calEntries values := by
  by_cases hval : ∀ v ∈ values, v.toNat ≤ 63
  · rw [calOperands_of_le hval, Option.some.injEq] at h
    exact ⟨hval, h.symm⟩
  · push Not at hval
    rw [calOperands_of_gt hval] at h
    cases h

section
variable {s t : State}

theorem answer_setAnodeVoltage {v : Operand} (h : execSetAnodeVoltage v s = .next t) :
    Answer s (.setAnodeVoltage v) t := by
  obtain ⟨hready, h⟩ := State.guarded_next h
  split at h
  · obtain rfl := State.fail_next.mp h
    exact .rejected rfl nofun nofun
  · obtain rfl := State.finish_next.mp h
    exact .voltage hready

theorem answer_setAll {v : Operand} (h : execSetAll v s = .next t) : Answer s (.setAll v) t := by
  obtain ⟨hready, h⟩ := State.guarded_next h
  split at h
  · obtain rfl := State.fail_next.mp h
    exact .rejected rfl nofun nofun
  · obtain rfl := State.finish_next.mp h
    exact .frame hready (.inl ⟨v, rfl⟩) fun _ => List.length_replicate

theorem answer_setSymbol {k : Byte} {v : Operand} (h : execSetSymbol k v s = .next t) :
    Answer s (.setSymbol k v) t := by
  obtain ⟨hready, h⟩ := State.guarded_next h
  split at h
  · obtain rfl := State.fail_next.mp h
    exact .rejected rfl nofun nofun
  · obtain rfl := State.fail_next.mp h
    exact .rejected rfl nofun nofun
  · obtain rfl := State.finish_next.mp h
    exact .frame hready (.inr (.inl ⟨k, v, rfl⟩)) fun hfb => List.length_set.trans hfb

theorem answer_renderDigit {ch d : Byte} {v : Operand} (h : execRenderDigit ch d v s = .next t) :
    Answer s (.renderDigit ch d v) t := by
  obtain ⟨hready, h⟩ := State.guarded_next h
  split at h
  · next hnone =>
    obtain rfl := State.fail_next.mp h
    exact .rejected rfl nofun fun _ => ⟨hnone, ch, d, v, rfl⟩
  · split at h
    · obtain rfl := State.fail_next.mp h
      exact .rejected rfl nofun nofun
    · obtain rfl := State.fail_next.mp h
      exact .rejected rfl nofun nofun
    · obtain rfl := State.finish_next.mp h
      exact .frame hready (.inr (.inr ⟨ch, d, v, rfl⟩)) fun hfb => (length_drawDigit ..).trans hfb

theorem answer_commitFrame (h : execCommitFrame s = .next t) : Answer s .commitFrame t := by
  obtain ⟨hready, h⟩ := State.guarded_next h
  obtain rfl := State.finish_next.mp h
  exact .commit hready

theorem answer_setCalibration {persist : Bool} {values : List Byte}
    (h : execSetCalibration persist values s = .next t) : Answer s (.setCalibration persist values) t := by
  obtain ⟨hready, h⟩ := State.guarded_next h
  split at h
  · cases h
  · next hlen =>
    split at h
    · obtain rfl := State.fail_next.mp h
      exact .rejected rfl nofun nofun
    · next entries hcal =>
      obtain ⟨hval, rfl⟩ := calOperands_eq_some hcal
      cases h
      exact .calibrate hready (not_not.mp hlen) hval

theorem answer_setCalibrationEnabled {enable : Bool} (h : execSetCalibrationEnabled enable s = .next t) :
    Answer s (.setCalibrationEnabled enable) t := by
  obtain ⟨hready, h⟩ := State.guarded_next h
  split at h
  · next heq =>
    obtain rfl := State.finish_next.mp h
    exact heq ▸ .agreed hready
  · next hne =>
    obtain rfl := State.finish_next.mp h
    exact .toggled hready hne

theorem answer_sendBare {w : WireCommand} {values : List Drive} (hw : w ≠ .disablePwm)
    (h : s.sendBare w values = .next t) : Answer s w.instr t := by
  obtain ⟨hready, rfl⟩ := State.sendBare_next.mp h
  exact .bare hready hw

/-- Every answer of every instruction is one of those listed. -/
theorem exec_answer {i : Instr} (h : exec i s = .next t) : Answer s i t := by
  cases i with
  | hostInit => cases h; exact .boot
  | setAnodeVoltage v => exact answer_setAnodeVoltage h
  | setAll v => exact answer_setAll h
  | setSymbol k v => exact answer_setSymbol h
  | renderDigit ch d v => exact answer_renderDigit h
  | commitFrame => exact answer_commitFrame h
  | setCalibration p vs => exact answer_setCalibration h
  | setCalibrationEnabled e => exact answer_setCalibrationEnabled h
  | updatePwm => exact answer_sendBare (w := .updatePwm) nofun h
  | toggleCorrection => exact answer_sendBare (w := .toggleCorrection) nofun h
  | updateCorrection => exact answer_sendBare (w := .updateCorrection) nofun h
  | enablePwm => exact answer_sendBare (w := .enablePwm) nofun h
  | disablePwm => cases h
  | togglePhaseShift => exact answer_sendBare (w := .togglePhaseShift) nofun h
  | reserved sel => cases h; exact .rejected rfl nofun nofun

/-- A step that answers idles, or runs the instruction of the oldest request (R52, R186). -/
theorem step_next (h : step s = .next t) :
    (s.requests = [] ∧ t = s) ∨
      ∃ r rest i, s.requests = r :: rest ∧ decode s.cfg r = .ok i ∧
        exec i { s with requests := rest } = .next t := by
  cases hreq : s.requests with
  | nil =>
    simp only [step, hreq, Host.Outcome.next.injEq] at h
    exact .inl ⟨rfl, h.symm⟩
  | cons r rest =>
    cases hdec : decode s.cfg r with
    | error why =>
      rw [step_of_decode_error hreq hdec] at h
      cases h
    | ok i =>
      rw [step_of_decode_ok hreq hdec] at h
      exact .inr ⟨r, rest, i, rfl, hdec, h⟩

end

end Sys2Proof.Machine
end

section
/-! What every answer leaves alone (spec/10_state.md R20 to R31): the configuration, the requests, what stands in `OUT`
and in the results, and each register outside the instructions that write it. -/

namespace Sys2Proof.Machine

variable {i : Instr} {s t : State}

/-- No answer writes the configuration (R27). -/
theorem Answer.cfg_eq (h : Answer s i t) : t.cfg = s.cfg := by cases h <;> simp

/-- The host's pending requests are the host's (R52). -/
theorem Answer.requests_eq (h : Answer s i t) : t.requests = s.requests := by cases h <;> simp

/-- Every answer appends to `OUT` (R28). -/
theorem Answer.out_append (h : Answer s i t) : ∃ evs, t.out = s.out ++ evs := by cases h <;> simp

/-- Every answer appends to the results (R72). -/
theorem Answer.results_append (h : Answer s i t) : ∃ rs, t.results = s.results ++ rs := by cases h <;> simp

end Sys2Proof.Machine

namespace Sys2Proof.Proofs

open Sys2Proof.Machine

/-- Settles O52: each answer writes the registers of its own instruction. -/
theorem writersOfEachRegister : Obligations.WritersOfEachRegister := by
  intro i s t h
  cases exec_answer h with
  | boot => simp
  | rejected hi hk hdigits => simp
  | voltage hready => simp
  | frame hready hi hlen => simp [hi]
  | commit hready => simp
  | @calibrate persist values hready hlen hval => cases persist <;> simp [State.persistCal_false]
  | agreed hready => simp
  | toggled hready hne => simp
  | bare hready hw => simp

/-- Settles O53: the tables are part of the configuration, which no answer writes. -/
theorem noOperationWritesTheTables : Obligations.NoOperationWritesTheTables := by
  intro i s t h
  rw [(exec_answer h).cfg_eq]
  exact ⟨rfl, fun _ => rfl, fun _ => rfl, fun _ => rfl⟩

/-- Settles O54, one lemma of `Answer` for each part. -/
theorem outputIsOnlyAppended : Obligations.OutputIsOnlyAppended := by
  intro i s t h
  have ha := exec_answer h
  exact ⟨ha.out_append, ha.results_append, ha.requests_eq⟩

end Sys2Proof.Proofs
end

section
/-! The serializer position (spec/10_state.md R25): the machine's run, field by field, channel by channel and phase by
phase, against the transmission of R113. -/

namespace Sys2Proof.Machine

/-- The bits of a field, by position from the top one down (R112). -/
theorem msbFirst_eq_reverse {n : Nat} (v : BitVec n) : msbFirst v = (List.range n).reverse.map v.getLsbD := by
  apply List.ext_getElem
  · simp
  · intro k h1 h2
    simp at h1
    simp [msbFirst, BitVec.getMsbD_eq_getLsbD, h1]

/-- The channels below `top + 1`, the top one first (R42). -/
theorem channelsDown_succ (top n : Nat) : channelsDown (top + 1) (n + 1) = top :: channelsDown top n := by
  simp only [channelsDown, List.range_succ_eq_map, List.map_cons, List.map_map]
  refine congrArg₂ _ rfl (List.map_congr_left fun k _ => ?_)
  show top + 1 - 1 - (k + 1) = top - 1 - k
  omega

section
variable (c : Config) (cmd : Byte) (value : Nat → Drive) (fuel : Nat)

@[simp] theorem Position.run_none : Position.run c cmd value fuel none = [] := by cases fuel <;> rfl

/-- One position: what it emits, then the rest (R25). -/
theorem Position.run_some (p : Position) :
    Position.run c cmd value (fuel + 1) (some p) = p.emit cmd value ++ Position.run c cmd value fuel (p.next c) := rfl

/-- A field of `n` bits in one phase: its bits from `b` down to 0, then the position after bit 0. -/
theorem Position.run_bits {n : Nat} (v : BitVec n) {phase : Phase} {ch : Nat} (b : Nat)
    (hemit : ∀ k, (⟨phase, ch, k⟩ : Position).emit cmd value = pulse (v.getLsbD k))
    (hnext : ∀ k, (⟨phase, ch, k + 1⟩ : Position).next c = some ⟨phase, ch, k⟩) :
    Position.run c cmd value (b + 1 + fuel) (some ⟨phase, ch, b⟩) =
      ((List.range (b + 1)).reverse.map v.getLsbD).flatMap pulse ++
        Position.run c cmd value fuel ((⟨phase, ch, 0⟩ : Position).next c) := by
  induction b with
  | zero => simp [Nat.add_comm 1 fuel, Position.run_some, hemit]
  | succ b ih =>
    rw [show b + 1 + 1 + fuel = b + 1 + fuel + 1 by omega, Position.run_some, hemit, hnext, ih,
      List.range_succ (n := b + 1)]
    simp

/-- A channel of a bank in its data phase: its 12 bits, then the position after the last one. -/
theorem Position.run_channel {phase : Phase} (hphase : phase = .bank2Data ∨ phase = .bank1Data) (ch : Nat) :
    Position.run c cmd value (12 + fuel) (some ⟨phase, ch, 11⟩) =
      emitField (value ch) ++ Position.run c cmd value fuel ((⟨phase, ch, 0⟩ : Position).next c) := by
  rw [emitField, msbFirst_eq_reverse]
  rcases hphase with rfl | rfl
  · exact Position.run_bits c cmd value fuel (value ch) 11 (fun _ => rfl) fun _ => rfl
  · exact Position.run_bits c cmd value fuel (value ch) 11 (fun _ => rfl) fun _ => rfl

/-- A command in its phase: its 8 bits, then the position after the last one. -/
theorem Position.run_command {phase : Phase} (hphase : phase = .bank2Cmd ∨ phase = .bank1Cmd) (ch : Nat) :
    Position.run c cmd value (8 + fuel) (some ⟨phase, ch, 7⟩) =
      emitField cmd ++ Position.run c cmd value fuel ((⟨phase, ch, 0⟩ : Position).next c) := by
  rw [emitField, msbFirst_eq_reverse]
  rcases hphase with rfl | rfl
  · exact Position.run_bits c cmd value fuel cmd 7 (fun _ => rfl) fun _ => rfl
  · exact Position.run_bits c cmd value fuel cmd 7 (fun _ => rfl) fun _ => rfl

/-- A bank whose lowest channel is `low`: its channels down to that one, then the position after it. -/
theorem Position.run_bank {phase : Phase} (hphase : phase = .bank2Data ∨ phase = .bank1Data) {low : Nat}
    (hnext : ∀ ch, low < ch → (⟨phase, ch, 0⟩ : Position).next c = some ⟨phase, ch - 1, 11⟩) (n : Nat) :
    Position.run c cmd value (12 * (n + 1) + fuel) (some ⟨phase, low + n, 11⟩) =
      (channelsDown (low + n + 1) (n + 1)).flatMap (fun ch => emitField (value ch)) ++
        Position.run c cmd value fuel ((⟨phase, low, 0⟩ : Position).next c) := by
  induction n with
  | zero =>
    rw [Position.run_channel _ _ _ _ hphase, channelsDown_succ]
    simp [channelsDown]
  | succ n ih =>
    rw [show 12 * (n + 1 + 1) + fuel = 12 + (12 * (n + 1) + fuel) by omega, Position.run_channel _ _ _ _ hphase,
      hnext _ (by omega), show low + (n + 1) - 1 = low + n by omega, ih, channelsDown_succ (low + (n + 1))]
    simp [List.append_assoc, Nat.add_assoc]

/-- Bank 2, from its top channel to the first bit of its command (R113). -/
theorem Position.run_bank2 :
    Position.run c cmd value (12 * c.bank + fuel) (some (Position.start c)) =
      (channelsDown c.channelCount c.bank).flatMap (fun ch => emitField (value ch)) ++
        Position.run c cmd value fuel (some ⟨.bank2Cmd, c.bank, 7⟩) := by
  obtain ⟨n, hn⟩ : ∃ n, c.bank = n + 1 := ⟨c.bank - 1, by have := bank_pos c; omega⟩
  have htop : c.channelCount = c.bank + n + 1 := by have := two_mul_bank c; omega
  have h := Position.run_bank c cmd value fuel (.inl rfl) (low := c.bank)
    (fun ch hch => by simp [Position.next, hch]) n
  rw [← hn, ← htop] at h
  rw [Position.start, show c.channelCount - 1 = c.bank + n by omega, h]
  simp [Position.next]

/-- Bank 1, from its top channel to the first bit of its command (R113). -/
theorem Position.run_bank1 :
    Position.run c cmd value (12 * c.bank + fuel) (some ⟨.bank1Data, c.bank - 1, 11⟩) =
      (channelsDown c.bank c.bank).flatMap (fun ch => emitField (value ch)) ++
        Position.run c cmd value fuel (some ⟨.bank1Cmd, 0, 7⟩) := by
  obtain ⟨n, hn⟩ : ∃ n, c.bank = n + 1 := ⟨c.bank - 1, by have := bank_pos c; omega⟩
  have h := Position.run_bank c cmd value fuel (.inr rfl) (low := 0)
    (fun ch hch => by simp [Position.next, hch]) n
  rw [Nat.zero_add] at h
  rw [hn, Nat.add_sub_cancel, h]
  simp [Position.next]

/-- The last three positions and the end of the transmission (R65, R113). -/
theorem Position.run_terminator (ch : Nat) :
    Position.run c cmd value (3 + fuel) (some ⟨.dataIdle, ch, 0⟩) = terminator := by
  simp [Nat.add_comm 3 fuel, Position.run, Position.emit, Position.next, terminator]

end

end Sys2Proof.Machine

namespace Sys2Proof.Proofs

open Sys2Proof.Machine

/-- Settles O27: the five phases of the run are the five parts of the transmission. -/
theorem positionMachineEmitsTheTransmission : Obligations.PositionMachineEmitsTheTransmission := by
  intro c cmd value extra
  have hfuel : 12 * c.channelCount + 16 + 3 + extra = 12 * c.bank + (8 + (12 * c.bank + (8 + (3 + extra)))) := by
    have := two_mul_bank c
    omega
  have hcmd2 : (⟨.bank2Cmd, c.bank, 0⟩ : Position).next c = some ⟨.bank1Data, c.bank - 1, 11⟩ := rfl
  have hcmd1 : (⟨.bank1Cmd, 0, 0⟩ : Position).next c = some ⟨.dataIdle, 0, 0⟩ := rfl
  rw [hfuel, Position.run_bank2, Position.run_command _ _ _ _ (.inl rfl), hcmd2, Position.run_bank1,
    Position.run_command _ _ _ _ (.inr rfl), hcmd1, Position.run_terminator]
  simp only [transmission, List.append_assoc]

end Sys2Proof.Proofs
end

section
/-! The driver chips under a transmission and under the reset hold: register sizes (spec/30_encoding.md R66), and the
correction state, which a toggle-correction frame flips and every other frame that is sent leaves alone (R120). -/

namespace Sys2Proof.Machine

variable {c : Config} {chip : Chip} {chips : Chips}

/-! ### One frame at one chip -/

/-- A chip that takes its half of a frame: the bits shifted in, latched and acted on (R30a, R30b, R66). -/
def Chip.takeFrame (c : Config) (d : Nat) (bits : List Bool) (chip : Chip) : Chip :=
  Chip.act c d { chip with shift := bits, outReg := bits }

/-- A transmission gives chip 2 the first half of its frame and chip 1 the second (R66). -/
theorem Chips.receive_eq_takeFrame (c : Config) (d : Nat) (level : Bool) (cmd : Byte) (value : Nat → Drive)
    (chips : Chips) :
    chips.receive c d level (transmission c cmd value) =
      { chip2 := chips.chip2.takeFrame c d ((frameBits c cmd value).take c.chipBits)
        chip1 := chips.chip1.takeFrame c (d + Chip.drawsPerLatch) ((frameBits c cmd value).drop c.chipBits)
        fresh := false } := by
  rw [Chips.receive_transmission, Chips.shiftIn_frame _ _ _ (length_frameBits ..)]
  rfl

/-- The halves of a frame: a bank's channels, then the command (R61). -/
theorem frameBits_halves (c : Config) (cmd : Byte) (value : Nat → Drive) :
    (frameBits c cmd value).take c.chipBits =
        (channelsDown c.channelCount c.bank).flatMap (fun ch => msbFirst (value ch)) ++ msbFirst cmd ∧
      (frameBits c cmd value).drop c.chipBits =
        (channelsDown c.bank c.bank).flatMap (fun ch => msbFirst (value ch)) ++ msbFirst cmd := by
  have hlen : ((channelsDown c.channelCount c.bank).flatMap (fun ch => msbFirst (value ch)) ++
      msbFirst cmd).length = c.chipBits := by
    rw [List.length_append, length_flatMap_msbFirst, length_channelsDown, length_msbFirst, Config.chipBits]
  rw [frameBits, List.append_assoc, List.take_left' hlen, List.drop_left' hlen]
  exact ⟨rfl, rfl⟩

/-! ### Register sizes -/

/-- The registers of both chips have their lengths (R66). -/
abbrev Chips.Sized (c : Config) (chips : Chips) : Prop := chips.chip1.Sized c ∧ chips.chip2.Sized c

/-- The duties after a frame without data, loaded or kept, fill the bank (entry 18). -/
theorem Chip.length_loadOrKeep (h : chip.duty.length = c.bank) (d : Nat) :
    (chip.loadOrKeep c d).length = c.bank := by
  unfold Chip.loadOrKeep
  split
  · simp [bankValues]
  · exact h

/-- No command changes the size of a register. -/
theorem Chip.Sized.act (h : chip.Sized c) (d : Nat) : (chip.act c d).Sized c := by
  obtain ⟨hshift, hout, hduty, hcorr⟩ := h
  have hbank : (bankValues c chip.outReg).length = c.bank := by simp [bankValues]
  have hkeep := Chip.length_loadOrKeep hduty d
  unfold Chip.act
  split
  · exact ⟨hshift, hout, hbank, hcorr⟩
  · exact ⟨hshift, hout, hduty, hbank⟩
  all_goals exact ⟨hshift, hout, hkeep, hcorr⟩

theorem Chip.Sized.takeFrame (h : chip.Sized c) {bits : List Bool} (hbits : bits.length = c.chipBits) (d : Nat) :
    (chip.takeFrame c d bits).Sized c := by
  obtain ⟨-, -, hduty, hcorr⟩ := h
  exact Chip.Sized.act (chip := { chip with shift := bits, outReg := bits }) ⟨hbits, hbits, hduty, hcorr⟩ d

/-- A transmission keeps the sizes of the chips' registers. -/
theorem Chips.Sized.receive (h : chips.Sized c) (d : Nat) (level : Bool) (cmd : Byte) (value : Nat → Drive) :
    (chips.receive c d level (transmission c cmd value)).Sized c := by
  obtain ⟨h1, h2⟩ := h
  have hlen := length_frameBits c cmd value
  have hchip := two_mul_chipBits c
  rw [Chips.receive_eq_takeFrame]
  exact ⟨h1.takeFrame (by rw [List.length_drop]; omega) _, h2.takeFrame (by rw [List.length_take]; omega) _⟩

/-- The reset hold keeps the sizes of the chips' registers (R30c). -/
theorem Chips.Sized.hold (h : chips.Sized c) (d : Nat) : (chips.hold c d).Sized c := by
  obtain ⟨⟨-, h1⟩, -, h2⟩ := h
  exact ⟨⟨List.length_replicate, h1⟩, List.length_replicate, h2⟩

/-- The reset sequence keeps the sizes of the chips' registers (R131). -/
theorem Chips.Sized.resetSequence {s : State} (h : s.chips.Sized s.cfg) : s.resetSequence.chips.Sized s.cfg := by
  simp only [State.resetSequence_eq, State.setInitState_chips, State.setInitState_cfg, State.setCalEn_chips,
    State.setCalEn_cfg, State.transmit_chips, State.transmit_cfg, State.resetHold_chips, State.resetHold_cfg]
  exact (((h.hold _).receive ..).receive ..).receive ..

/-! ### The correction state -/

/-- The command in each half of a frame (R66). -/
theorem bankCommand_frameBits (c : Config) (cmd : Byte) (value : Nat → Drive) :
    bankCommand c ((frameBits c cmd value).take c.chipBits) = cmd ∧
      bankCommand c ((frameBits c cmd value).drop c.chipBits) = cmd := by
  have hhalf (top : Nat) :
      bankCommand c ((channelsDown top c.bank).flatMap (fun ch => msbFirst (value ch)) ++ msbFirst cmd) = cmd := by
    have h := fieldAt_append cmd ((channelsDown top c.bank).flatMap fun ch => msbFirst (value ch)) []
    rwa [List.append_nil, length_flatMap_msbFirst, length_channelsDown] at h
  obtain ⟨hfirst, hsecond⟩ := frameBits_halves c cmd value
  rw [hfirst, hsecond]
  exact ⟨hhalf _, hhalf _⟩

/-- The correction of a chip after a command that is sent (R119 to R122, R124; entry 20). -/
theorem Chip.takeFrame_correction {w : WireCommand} (hw : w ≠ .disablePwm) {bits : List Bool}
    (hcmd : bankCommand c bits = c.code w) (d : Nat) (chip : Chip) :
    (chip.takeFrame c d bits).correction = (chip.correction ^^ decide (w = .toggleCorrection)) := by
  rw [Chip.takeFrame, Chip.act, hcmd, wireOf_code]
  cases w with
  | disablePwm => exact absurd rfl hw
  | updatePwm | enablePwm | toggleCorrection | updateCorrection | togglePhaseShift => simp

/-- Both chips' correction is `b`. -/
def Chips.CorrectionIs (b : Bool) (chips : Chips) : Prop := chips.chip1.correction = b ∧ chips.chip2.correction = b

variable {b : Bool}

/-- A frame that is sent flips both chips' correction if it is a toggle-correction, and else keeps it. -/
theorem Chips.CorrectionIs.receive (h : chips.CorrectionIs b) {w : WireCommand} (hw : w ≠ .disablePwm) (d : Nat)
    (level : Bool) (value : Nat → Drive) :
    (chips.receive c d level (transmission c (c.code w) value)).CorrectionIs (b ^^ decide (w = .toggleCorrection)) := by
  obtain ⟨rfl, h2⟩ := h
  obtain ⟨hcmd2, hcmd1⟩ := bankCommand_frameBits c (c.code w) value
  rw [Chips.receive_eq_takeFrame]
  refine ⟨Chip.takeFrame_correction hw hcmd1 _ _, ?_⟩
  rw [← h2]
  exact Chip.takeFrame_correction hw hcmd2 _ _

/-- A frame of another command than toggle-correction keeps both chips' correction. -/
theorem Chips.CorrectionIs.receive_other (h : chips.CorrectionIs b) {w : WireCommand} (hw : w ≠ .disablePwm)
    (hne : w ≠ .toggleCorrection) (d : Nat) (level : Bool) (value : Nat → Drive) :
    (chips.receive c d level (transmission c (c.code w) value)).CorrectionIs b := by
  simpa [hne] using h.receive hw d level value

/-- A toggle-correction frame flips both chips' correction (R120). -/
theorem Chips.CorrectionIs.receive_toggle (h : chips.CorrectionIs b) (d : Nat) (level : Bool) (value : Nat → Drive) :
    (chips.receive c d level (transmission c (c.code .toggleCorrection) value)).CorrectionIs (!b) := by
  simpa using h.receive (w := .toggleCorrection) (by decide) d level value

/-- The hold leaves the correction of chips in their power-up state alone (R176, entry 19). -/
theorem Chips.CorrectionIs.hold (h : chips.CorrectionIs b) (hfresh : chips.fresh = true) (d : Nat) :
    (chips.hold c d).CorrectionIs b := by
  simpa [Chips.CorrectionIs, Chips.hold, Chip.hold, hfresh] using h

/-- The reset sequence inverts the correction of chips in their power-up state (R131, R176). -/
theorem Chips.CorrectionIs.resetSequence {s : State} (h : s.chips.CorrectionIs b) (hfresh : s.chips.fresh = true) :
    s.resetSequence.chips.CorrectionIs (!b) := by
  simp only [State.resetSequence_eq, State.setInitState_chips, State.setCalEn_chips, State.transmit_chips,
    State.resetHold_chips]
  exact (((h.hold hfresh _).receive_toggle ..).receive_other (by decide) (by decide) ..).receive_other
    (by decide) (by decide) ..

/-- The update-correction frame leaves the correction state alone (R121, entry 20). -/
theorem Chips.CorrectionIs.sendCorrection {r : Bool × State} (h : r.2.chips.CorrectionIs b) :
    (State.sendCorrection r).chips.CorrectionIs b := by
  simp only [State.sendCorrection, State.withResult_chips, State.transmit_chips]
  exact h.receive_other (by decide) (by decide) ..

/-- The mirror invariant at the chips, by the one predicate of both chips. -/
theorem State.mirrorsChips_iff {s : State} : s.MirrorsChips ↔ (s.Ready → s.chips.CorrectionIs s.calEn) := Iff.rfl

end Sys2Proof.Machine

namespace Sys2Proof.Proofs

open Sys2Proof.Machine

/-- Settles O59: only a toggle-correction frame moves the chips' correction, and its senders move `CAL_EN` with it. -/
theorem operationsKeepTheMirrorAtTheChips : Obligations.OperationsKeepTheMirrorAtTheChips := by
  intro i s t hhost hmirror hfresh h
  rw [State.mirrorsChips_iff] at hmirror ⊢
  cases exec_answer h with
  | boot =>
    obtain ⟨hfresh, hchips⟩ := hfresh rfl
    have hreset : s.blankAndProgram.resetSequence.chips.CorrectionIs false :=
      Chips.CorrectionIs.resetSequence (b := true) (by rwa [State.blankAndProgram_chips]) (by simpa using hfresh)
    have hload : s.blankAndProgram.resetSequence.loadFromPersistent.2.chips.CorrectionIs false := by simpa using hreset
    simpa using fun _ => hload.sendCorrection
  | rejected _ _ _ | frame _ _ _ | agreed _ => exact hmirror
  | voltage hready => exact hmirror
  | commit hready =>
    simp only [State.withResult_chips, State.transmit_chips, State.withResult_calEn, State.transmit_calEn]
    exact fun _ => (hmirror hready).receive_other (by decide) (by decide) ..
  | @calibrate persist values hready hlen hval =>
    have hpersist : ((s.setCal (calEntries values)).persistCal persist).2.chips.CorrectionIs s.calEn := by
      simpa using hmirror hready
    simpa using fun _ => hpersist.sendCorrection
  | toggled hready hne =>
    simp only [State.withResult_chips, State.setCalEn_chips, State.transmit_chips, State.withResult_calEn,
      State.setCalEn_calEn, Bool.eq_not.mpr hne]
    exact fun _ => (hmirror hready).receive_toggle ..
  | @bare w values hready hw => cases w <;> cases hhost

end Sys2Proof.Proofs
end

section
/-! The invariant of a good state (spec/10_state.md R20, R21, R24, R33; spec/44_controller.md R132): power-on meets
it and every answer keeps it, so every step does. -/

namespace Sys2Proof.Machine

/-- A store access leaves the store canonical, whether it succeeds or fails (U6). -/
theorem State.wf_persistCal {s : State} (h : Memory.wf s.ps = true) (persist : Bool) :
    Memory.wf (s.persistCal persist).2.ps = true := by
  cases persist with
  | false => exact h
  | true => exact State.wf_storeAfterWrite _ _ _ h

section
variable {i : Instr} {s t : State}

/-- `FB` and `CAL` keep their registers (R20, R21). -/
theorem Answer.sized (h : Answer s i t) (hs : s.Sized) : t.Sized := by
  obtain ⟨hfb, hcal⟩ := hs
  unfold State.Sized
  cases h with
  | boot => simp [State.loadFromPersistent_cal, length_calLoaded]
  | frame _ _ hlen => exact ⟨hlen hfb, hcal⟩
  | calibrate _ hlen _ => simp [hfb, hlen]
  | rejected _ _ _ | voltage _ | commit _ | agreed _ | toggled _ _ | bare _ _ => simp [hfb, hcal]

/-- The lines are low again after every answer (R24, R114). -/
theorem Answer.busIdle (h : Answer s i t) (hs : s.BusIdle) : t.BusIdle := by
  obtain ⟨hdata, hclk, hlatch⟩ := hs
  unfold State.BusIdle
  cases h with
  | boot | commit _ | calibrate _ _ _ | toggled _ _ | bare _ _ => simp
  | rejected _ _ _ | voltage _ | frame _ _ _ | agreed _ => simp [hdata, hclk, hlatch]

/-- No answer leaves the block half way through its reset sequence (R132). -/
theorem Answer.settled (h : Answer s i t) (hs : s.Settled) : t.Settled := by
  unfold State.Settled at hs ⊢
  cases h with
  | boot => simp
  | rejected _ _ _ | voltage _ | frame _ _ _ | commit _ | calibrate _ _ _ | agreed _ | toggled _ _ | bare _ _ =>
    simpa using hs

/-- The chips' registers keep their lengths (R66). -/
theorem Answer.chipsSized (h : Answer s i t) (hs : s.chips.Sized s.cfg) : t.chips.Sized t.cfg := by
  rw [h.cfg_eq]
  cases h with
  | boot =>
    have hreset : s.blankAndProgram.resetSequence.chips.Sized s.cfg := by
      simpa using Chips.Sized.resetSequence (s := s.blankAndProgram) (by simpa using hs)
    simp only [State.sendCorrection, State.withResult_chips, State.transmit_chips, State.loadFromPersistent_chips,
      State.loadFromPersistent_cfg, State.resetSequence_cfg, State.blankAndProgram_cfg]
    exact hreset.receive ..
  | calibrate _ _ _ =>
    simp only [State.sendCorrection, State.withResult_chips, State.transmit_chips, State.persistCal_chips,
      State.persistCal_cfg, State.setCal_chips, State.setCal_cfg]
    exact hs.receive ..
  | commit _ | toggled _ _ | bare _ _ =>
    simp only [State.withResult_chips, State.setCalEn_chips, State.transmit_chips]
    exact hs.receive ..
  | rejected _ _ _ | voltage _ | frame _ _ _ | agreed _ => simpa using hs

/-- The store keeps its canonical form. -/
theorem Answer.wf_ps (h : Answer s i t) (hs : Memory.wf s.ps = true) : Memory.wf t.ps = true := by
  cases h with
  | @calibrate persist values _ _ _ =>
    have hpersist := State.wf_persistCal (s := s.setCal (calEntries values)) (by simpa using hs) persist
    simpa using hpersist
  | boot | rejected _ _ _ | voltage _ | frame _ _ _ | commit _ | agreed _ | toggled _ _ | bare _ _ => simpa using hs

/-- Every answer keeps the invariant. -/
theorem Answer.inv (h : Answer s i t) (hinv : s.Inv) : t.Inv := by
  obtain ⟨hsized, hidle, hsettled, hchips, hps⟩ := hinv
  exact ⟨h.sized hsized, h.busIdle hidle, h.settled hsettled, h.chipsSized hchips, h.wf_ps hps⟩

end

end Sys2Proof.Machine

namespace Sys2Proof.Proofs

open Sys2Proof.Machine

/-- Settles O57: a step idles or gives an answer, and taking a request off the list touches nothing the
invariant reads. -/
theorem stepKeepsTheInvariant : Obligations.StepKeepsTheInvariant := by
  intro s t hinv h
  obtain ⟨-, rfl⟩ | ⟨r, rest, i, -, -, hexec⟩ := step_next h
  · exact hinv
  · exact (exec_answer hexec).inv hinv

/-- Settles O55, field by field. -/
theorem powerOnState : Obligations.PowerOnState := by
  refine ⟨fun c ps => ?_, rfl, rfl, rfl, fun s => ⟨rfl, rfl, rfl⟩⟩
  simp [State.powerOn, Chips.powerUp, Chip.powerUp]

/-- Settles O56: reset has every register at its size and low lines, and is not ready, so that the mirrors ask
nothing. -/
theorem resetMeetsTheInvariants : Obligations.ResetMeetsTheInvariants := by
  have hchip (c : Config) : (Chip.powerUp c).Sized c := by simp [Chip.powerUp]
  have hsized : State.reset.Sized := ⟨List.length_replicate, List.length_replicate⟩
  exact ⟨⟨hsized, ⟨rfl, rfl, rfl⟩, .inl rfl, ⟨hchip _, hchip _⟩, rfl⟩, ⟨rfl, Nat.zero_le _, nofun⟩, nofun⟩

end Sys2Proof.Proofs
end

section
/-! The mirror over `OUT` (spec/10_state.md R34): how each piece of output moves the count of toggle-correction frames
since the latest reset hold. -/

namespace Sys2Proof.Machine

variable {c : Config} {out : List Event} {n : Nat}

/-! ### The monitor on a transmission -/

theorem Monitor.after_append (c : Config) (m : Monitor) (a b : List Event) :
    m.after c (a ++ b) = (m.after c a).after c b := List.foldl_append

theorem monitor_append (c : Config) (out evs : List Event) : monitor c (out ++ evs) = (monitor c out).after c evs :=
  Monitor.after_append ..

/-- Pulses clock their bits in and record nothing (R64). -/
theorem Monitor.after_pulses (c : Config) (m : Monitor) (bits : List Bool) :
    ∃ level, m.after c (bits.flatMap pulse) = { m with level := level, bits := bits.reverse ++ m.bits } := by
  induction bits generalizing m with
  | nil => exact ⟨m.level, rfl⟩
  | cons b rest ih =>
    obtain ⟨level, h⟩ := ih { m with level := b, bits := b :: m.bits }
    refine ⟨level, ?_⟩
    rw [List.flatMap_cons, Monitor.after_append]
    refine h.trans ?_
    simp

/-- The two command fields of a frame (R61). -/
theorem fieldAt_frameBits (c : Config) (cmd : Byte) (value : Nat → Drive) :
    fieldAt 8 (frameBits c cmd value) (12 * c.bank) = cmd ∧
      fieldAt 8 (frameBits c cmd value) (24 * c.bank + 8) = cmd := by
  constructor
  · have h := fieldAt_append cmd ((channelsDown c.channelCount c.bank).flatMap fun ch => msbFirst (value ch))
      ((channelsDown c.bank c.bank).flatMap (fun ch => msbFirst (value ch)) ++ msbFirst cmd)
    rw [length_flatMap_msbFirst, length_channelsDown] at h
    simpa only [frameBits, List.append_assoc] using h
  · have h := fieldAt_append cmd ((channelsDown c.channelCount c.bank).flatMap (fun ch => msbFirst (value ch)) ++
      msbFirst cmd ++ (channelsDown c.bank c.bank).flatMap fun ch => msbFirst (value ch)) []
    rw [List.append_nil, List.length_append, List.length_append, length_flatMap_msbFirst, length_flatMap_msbFirst,
      length_channelsDown, length_channelsDown, length_msbFirst,
      show 12 * c.bank + 8 + 12 * c.bank = 24 * c.bank + 8 by omega] at h
    exact h

/-- A monitor with nothing clocked in records a transmission as one frame with its command twice (R66, R118). -/
theorem Monitor.after_transmission (c : Config) {m : Monitor} (hbits : m.bits = []) (cmd : Byte)
    (value : Nat → Drive) :
    m.after c (transmission c cmd value) =
      { level := false, bits := [], sent := m.sent ++ [(cmd, cmd)], beforeHold := m.beforeHold } := by
  obtain ⟨level, h⟩ := Monitor.after_pulses c m (frameBits c cmd value)
  obtain ⟨hfirst, hsecond⟩ := fieldAt_frameBits c cmd value
  rw [transmission_eq_pulses, Monitor.after_append, h, hbits]
  simp [Monitor.after, terminator, Monitor.onEvent, Monitor.onLatch, Monitor.commands, length_frameBits, hfirst,
    hsecond]

/-! ### The count of toggle-correction frames -/

/-- `out` ends between frames, and since its latest reset hold `n` toggle-correction frames were sent. -/
structure Tally (c : Config) (out : List Event) (n : Nat) : Prop where
  between : (monitor c out).bits = []
  held : (monitor c out).beforeHold ≤ (monitor c out).sent.length
  count : (monitor c out).toggles c = n

/-- The mirror invariant over `OUT`, by the count. -/
theorem State.mirrorsOut_iff {s : State} : s.MirrorsOut ↔
    ∃ n, Tally s.cfg s.out n ∧ (s.Ready → 1 ≤ n ∧ s.calEn = decide ((n - 1) % 2 = 1)) := by
  constructor
  · intro ⟨hbits, hheld, hready⟩
    exact ⟨_, ⟨hbits, hheld, rfl⟩, hready⟩
  · rintro ⟨n, ⟨hbits, hheld, rfl⟩, hready⟩
    exact ⟨hbits, hheld, hready⟩

/-- Events that the monitor does not see. -/
theorem Tally.append_unseen (h : Tally c out n) {evs : List Event} (hevs : ∀ m : Monitor, m.after c evs = m) :
    Tally c (out ++ evs) n := by
  obtain ⟨hbits, hheld, hcount⟩ := h
  refine ⟨?_, ?_, ?_⟩ <;> rwa [monitor_append, hevs]

/-- The reset hold starts the count again (R131). -/
theorem Tally.append_hold (h : Tally c out n) : Tally c (out ++ holdEvents c) 0 := by
  obtain ⟨hbits, hheld, -⟩ := h
  have hafter : monitor c (out ++ holdEvents c) =
      { monitor c out with beforeHold := (monitor c out).sent.length } := by
    have hlen : ¬ 0 = c.frameLength := by simp [Config.frameLength]
    rw [monitor_append]
    simp [holdEvents, Monitor.after, Monitor.onEvent, Monitor.onLatch, hbits, hlen]
  refine ⟨?_, ?_, ?_⟩ <;> rw [hafter]
  · exact hbits
  · simp [Monitor.toggles]

/-- Only toggle-correction has toggle-correction's code (D7). -/
theorem code_eq_toggleCorrection {w : WireCommand} :
    c.code w = c.code .toggleCorrection ↔ w = .toggleCorrection := by
  refine ⟨fun h => ?_, fun h => h ▸ rfl⟩
  have hw := wireOf_code c w
  rw [h, wireOf_code] at hw
  exact (Option.some.inj hw).symm

/-- A transmission counts if it is a toggle-correction. -/
theorem Tally.append_transmission (h : Tally c out n) (w : WireCommand) (value : Nat → Drive) :
    Tally c (out ++ transmission c (c.code w) value) (n + if w = .toggleCorrection then 1 else 0) := by
  obtain ⟨hbits, hheld, rfl⟩ := h
  refine ⟨?_, ?_, ?_⟩ <;> rw [monitor_append, Monitor.after_transmission c hbits]
  · simp only [List.length_append]
    omega
  · simp [Monitor.toggles, List.drop_append_of_le_length hheld, List.countP_append, List.countP_singleton,
      code_eq_toggleCorrection]

/-- A transmission of another command does not count. -/
theorem Tally.append_other (h : Tally c out n) {w : WireCommand} (hw : w ≠ .toggleCorrection)
    (value : Nat → Drive) : Tally c (out ++ transmission c (c.code w) value) n := by
  simpa [hw] using h.append_transmission w value

/-- The reset sequence leaves a count of one, its own toggle-correction frame (R34, R131). -/
theorem Tally.resetSequence {s : State} (h : Tally s.cfg s.out n) : Tally s.cfg s.resetSequence.out 1 := by
  rw [State.resetSequence_out]
  exact ((h.append_hold.append_transmission .toggleCorrection _).append_other (by decide) _).append_other
    (by decide) _

/-! ### Host requests -/

/-- A request word decodes to an operation of the produced interface (R70). -/
theorem isHostOperation_of_decodeWord {w : ReqWord} {payload : List Byte} {i : Instr}
    (h : decodeWord w payload = .ok i) : isHostOperation i = true := by
  have hop : isHostOperation (decodeOp w payload) = true := by
    unfold decodeOp
    split <;> rfl
  unfold decodeWord at h
  split at h
  · cases h
    exact hop
  · split at h
    · cases h
      exact hop
    · cases h

/-- Every answer of a host operation keeps the mirror over `OUT`. -/
theorem Answer.mirrorsOut {i : Instr} {s t : State} (h : Answer s i t) (hhost : isHostOperation i = true)
    (hs : s.MirrorsOut) : t.MirrorsOut := by
  obtain ⟨n, htally, hready⟩ := State.mirrorsOut_iff.mp hs
  rw [State.mirrorsOut_iff, h.cfg_eq]
  cases h with
  | boot =>
    have hreset : Tally s.cfg s.blankAndProgram.resetSequence.out 1 := by
      have hblank := htally.append_unseen (evs := [.pwm .anode (.setup s.cfg.pwmAnode),
        .pwm .chipClk (.setup s.cfg.pwmChipClk)]) fun _ => rfl
      rw [← State.blankAndProgram_out] at hblank
      simpa only [State.blankAndProgram_cfg] using Tally.resetSequence (s := s.blankAndProgram) (by simpa using hblank)
    refine ⟨1, ?_, fun _ => ⟨le_rfl, by simp⟩⟩
    have hread := hreset.append_unseen (evs := [.nvRead s.cfg.calAddr s.cfg.symbolCount]) fun _ => rfl
    simpa using hread.append_other (w := .updateCorrection) (by decide) _
  | rejected _ _ _ | frame _ _ _ | agreed _ => exact ⟨n, htally, hready⟩
  | @voltage v d _ =>
    exact ⟨n, by simpa using htally.append_unseen (evs := [.pwm .anode (.duty d)]) fun _ => rfl, hready⟩
  | commit _ =>
    refine ⟨n, ?_, by simpa [State.Ready] using hready⟩
    simpa using htally.append_other (w := .updatePwm) (by decide) _
  | @calibrate persist values _ _ _ =>
    have hwrite : Tally s.cfg (s.out ++ persistEvents persist (s.setCal (calEntries values))) n :=
      htally.append_unseen fun _ => by cases persist <;> rfl
    refine ⟨n, ?_, by simpa [State.Ready] using hready⟩
    simpa using hwrite.append_other (w := .updateCorrection) (by decide) _
  | toggled hpwm hne =>
    obtain ⟨hone, hcal⟩ := hready hpwm
    refine ⟨n + 1, by simpa using htally.append_transmission .toggleCorrection _, fun _ => ⟨by omega, ?_⟩⟩
    rw [State.withResult_calEn, State.setCalEn_calEn, Bool.eq_not.mpr hne, hcal, ← decide_not, decide_eq_decide]
    omega
  | @bare w values _ _ => cases w <;> cases hhost

end Sys2Proof.Machine

namespace Sys2Proof.Proofs

open Sys2Proof.Machine

/-- Settles O58: a host request decodes to a host operation, whose answers keep the mirror. -/
theorem stepKeepsTheMirrorOverOut : Obligations.StepKeepsTheMirrorOverOut := by
  intro s t hmirror hhost h
  obtain ⟨-, rfl⟩ | ⟨r, rest, i, hreq, hdec, hexec⟩ := step_next h
  · exact hmirror
  · cases r with
    | wire code => exact absurd (by rw [hreq]; rfl) (hhost code)
    | host w payload => exact (exec_answer hexec).mirrorsOut (isHostOperation_of_decodeWord hdec) hmirror

end Sys2Proof.Proofs
end

section
/-! The persistence round trip (spec/42_calibration.md R103, spec/95_test_vectors.md E7): what a persisting
`setCalibration` stores is what a load after a power cycle reads. -/

namespace Sys2Proof.Machine

variable {s : State} {values : List Byte}

theorem storeResult_eq_ok {ok : Bool} : storeResult ok = .ok ↔ ok = true := by cases ok <;> simp [storeResult]

/-- An outcome settled beforehand is the outcome of the next access (U8, entry 7). -/
theorem State.storeOk_of_storeDraws {ok : Bool} {rest : List Bool} (h : s.storeDraws = ok :: rest) :
    s.storeOk = ok := by
  rw [State.storeOk, h]

/-- A valid entry survives its 6-bit register (R43, R74). -/
theorem setWidth_calEntry {v : Byte} (h : v.toNat ≤ 63) : ((v.setWidth 6 : CalVal).setWidth 8 : Byte) = v := by
  apply BitVec.eq_of_toNat_eq
  simp only [BitVec.toNat_setWidth]
  omega

/-- The stored image of valid entries is those entries (R43, D9). -/
theorem State.calImage_setCal (hval : ∀ v ∈ values, v.toNat ≤ 63) :
    (s.setCal (calEntries values)).calImage = values := by
  rw [State.calImage, State.setCal_cal, calEntries, List.map_map]
  exact (List.map_congr_left fun v hv => setWidth_calEntry (hval v hv)).trans values.map_id

/-- Loading valid bytes gives their entries, whatever the free values are (R103). -/
theorem calLoaded_of_le (hval : ∀ v ∈ values, v.toNat ≤ 63) (d : Nat) :
    calLoaded values.length d (some values) = calEntries values := by
  apply List.ext_getElem
  · simp [calLoaded]
  · intro i h1 h2
    have hi : i < values.length := by simpa using h2
    simp [calLoaded, calFromByte, hi, hval _ (List.getElem_mem hi)]

theorem State.persistCal_true_fst (s : State) : (s.persistCal true).1 = s.storeOk := rfl

/-- The store after a persisting `setCalibration` whose access succeeded holds the image (R29, R101). -/
theorem State.readBytes_persistCal (hwf : Memory.wf s.ps = true) (hok : s.storeOk = true) :
    Memory.readBytes (s.persistCal true).2.ps s.cfg.calAddr s.calImage.length = s.calImage := by
  show Memory.readBytes (s.storeAfterWrite s.cfg.calAddr s.calImage) s.cfg.calAddr s.calImage.length = _
  rw [State.storeAfterWrite, if_pos hok]
  exact Memory.readBytes_writeBytes _ _ hwf

/-- A persisting `setCalibration` of valid entries that returned `Ok` leaves them in the store (R101, R154). -/
theorem readBytes_of_setCalibration {t : State} (hready : s.Ready) (hwf : Memory.wf s.ps = true)
    (hlen : values.length = s.cfg.symbolCount) (hval : ∀ v ∈ values, v.toNat ≤ 63)
    (h : exec (.setCalibration true values) s = .next t) (hok : t.results = s.results ++ [.ok]) :
    Memory.readBytes t.ps s.cfg.calAddr s.cfg.symbolCount = values := by
  rw [exec_setCalibration hready hlen hval, Host.Outcome.next.injEq] at h
  subst h
  have himage := State.calImage_setCal (s := s) hval
  have hstore : (s.setCal (calEntries values)).storeOk = true := by
    simpa [storeResult_eq_ok, State.persistCal_true_fst] using hok
  have hread := State.readBytes_persistCal (s := s.setCal (calEntries values)) hwf hstore
  rw [himage, hlen] at hread
  simpa using hread

/-- The read of `hostInit`, made after its reset sequence: its outcome is the result, and if it succeeded `CAL` is what
the store holds (R103, R130, R154). -/
theorem hostInit_loads (s : State) : ∃ u, exec .hostInit s = .next u ∧
    u.results = s.results ++ [storeResult s.blankAndProgram.resetSequence.storeOk] ∧
    (s.blankAndProgram.resetSequence.storeOk = true → ∃ d, u.cal =
      calLoaded s.cfg.symbolCount d (some (Memory.readBytes s.ps s.cfg.calAddr s.cfg.symbolCount))) := by
  refine ⟨_, exec_hostInit s, by simp [State.loadFromPersistent_fst], fun hok => ?_⟩
  exact ⟨s.blankAndProgram.resetSequence.draws + 1, by simp [State.loadFromPersistent_cal, hok]⟩

end Sys2Proof.Machine

namespace Sys2Proof.Proofs

open Sys2Proof.Machine

/-- Settles O33: the store holds the entries when the write returned `Ok`, and `CAL` is what the store holds when
the read did. -/
theorem calibrationRoundTrip : Obligations.CalibrationRoundTrip := by
  intro s t values hready hwf hlen hval h hok
  have hstored := readBytes_of_setCalibration hready hwf hlen hval h hok
  have hcfg : t.powerCycle.cfg = s.cfg := (exec_answer h).cfg_eq
  obtain ⟨u, hu, hresults, hcal⟩ := hostInit_loads t.powerCycle
  have hread : u.results = [.ok] ↔ t.powerCycle.blankAndProgram.resetSequence.storeOk = true := by
    rw [hresults, ← storeResult_eq_ok]
    simp [State.powerCycle, State.powerOn]
  refine ⟨u, hu, fun hok' => ?_, fun rest hdraws => hread.mpr ?_⟩
  · obtain ⟨d, hd⟩ := hcal (hread.mp hok')
    rw [hd, hcfg, show t.powerCycle.ps = t.ps from rfl, hstored, ← hlen]
    exact calLoaded_of_le hval d
  · exact State.storeOk_of_storeDraws (rest := rest) (by simpa [State.powerCycle] using hdraws)

end Sys2Proof.Proofs
end

section
/-! The configuration's tables (spec/20_memory.md R45, spec/40_tables_glyph.md R80, R81): what a well-formed
configuration (D24) says of the entries that the two lookups return. -/

namespace Sys2Proof.Machine

variable {c : Config} {i : Nat}

/-- Every symbol in `CHANMAP` exists (R9, D24). -/
theorem lt_symbolCount_of_mem_chanMap (h : some i ∈ c.chanMap) : i < c.symbolCount := by
  have hwf := c.wf
  simp only [Params.wellFormed, Bool.and_eq_true] at hwf
  obtain ⟨⟨⟨⟨⟨-, hchan⟩, -⟩, -⟩, -⟩, -⟩ := hwf
  simpa using List.all_eq_true.mp hchan _ h

/-- Every symbol in a row of `SEGMAP` exists (R9, D24). -/
theorem lt_symbolCount_of_mem_segMap {row : List (Option Nat)} (hrow : row ∈ c.segMap) (h : some i ∈ row) :
    i < c.symbolCount := by
  have hwf := c.wf
  simp only [Params.wellFormed, Bool.and_eq_true] at hwf
  obtain ⟨⟨⟨⟨-, hseg⟩, -⟩, -⟩, -⟩ := hwf
  simpa using List.all_eq_true.mp (List.all_eq_true.mp hseg _ hrow) _ h

theorem symbolForChannel_lt {ch : Nat} (h : symbolForChannel c ch = some i) : i < c.symbolCount :=
  lt_symbolCount_of_mem_chanMap (mem_join_getElem? h)

/-- A digit without a row has no slots, so a slot that gives a symbol stands in a row of the table. -/
theorem segmentSymbol_lt {d k : Nat} (h : segmentSymbol c d k = some i) : i < c.symbolCount := by
  have hmem : some i ∈ c.segMap[d]?.getD [] := mem_join_getElem? h
  cases hrow : c.segMap[d]? with
  | none => simp [hrow] at hmem
  | some row => exact lt_symbolCount_of_mem_segMap (List.mem_of_getElem? hrow) (by simpa [hrow] using hmem)

end Sys2Proof.Machine

namespace Sys2Proof.Proofs

open Sys2Proof.Machine

/-- Settles O18: every symbol in either table exists, by the configuration's well-formedness. -/
theorem tableLookupsInRange : Obligations.TableLookupsInRange :=
  fun _ => ⟨fun _ _ => symbolForChannel_lt, fun _ _ _ => segmentSymbol_lt⟩

end Sys2Proof.Proofs
end

section
/-! The order of the lines within a transmission (spec/20_memory.md R54): what stands directly before and after each
event, said once for any number of pulses. -/

namespace Sys2Proof.Machine

/-- `InLineOrder pre e post`: the event `e`, sent between `pre` and `post`, keeps the order the chips rely on (R54). -/
inductive InLineOrder : List Event → Event → List Event → Prop
  | firstData (b : Bool) (post : List Event) : InLineOrder [] (.level .data b) post
  | nextData (pre : List Event) (b : Bool) (post : List Event) :
      InLineOrder (pre ++ [.level .clk false]) (.level .data b) post
  | clkRise (pre : List Event) (b : Bool) (post : List Event) :
      InLineOrder (pre ++ [.level .data b]) (.level .clk true) (.level .clk false :: post)
  | clkFall (pre post : List Event) : InLineOrder pre (.level .clk false) post
  | latchRise (pre : List Event) :
      InLineOrder (pre ++ [.level .data false]) (.level .latch true) [.level .latch false]
  | latchFall (pre post : List Event) : InLineOrder pre (.level .latch false) post

variable {pre post : List Event} {e : Event}

/-- A pulse sent before keeps the order: it ends with the falling clock, which the first data level then follows. -/
theorem InLineOrder.pulse_append (b : Bool) (h : InLineOrder pre e post) : InLineOrder (pulse b ++ pre) e post := by
  cases h with
  | firstData v => exact .nextData [.level .data b, .level .clk true] v post
  | nextData pre v => exact List.append_assoc (pulse b) .. ▸ .nextData (pulse b ++ pre) v post
  | clkRise pre v post => exact List.append_assoc (pulse b) .. ▸ .clkRise (pulse b ++ pre) v post
  | clkFall => exact .clkFall ..
  | latchRise pre => exact List.append_assoc (pulse b) .. ▸ .latchRise (pulse b ++ pre)
  | latchFall => exact .latchFall ..

/-- The terminator keeps the order (R65). -/
theorem inLineOrder_of_terminator (h : terminator = pre ++ e :: post) : InLineOrder pre e post := by
  unfold terminator at h
  match pre, h with
  | [], h => cases h; exact .firstData ..
  | [_], h => cases h; exact .latchRise []
  | [_, _], h => cases h; exact .latchFall ..
  | _ :: _ :: _ :: _, h => simp at h

/-- Pulses and then the terminator keep the order, one pulse at a time. -/
theorem inLineOrder_of_pulses (bits : List Bool) (h : bits.flatMap pulse ++ terminator = pre ++ e :: post) :
    InLineOrder pre e post := by
  induction bits generalizing pre with
  | nil => exact inLineOrder_of_terminator h
  | cons b rest ih =>
    simp only [List.flatMap_cons, pulse, List.cons_append, List.nil_append] at h
    match pre, h with
    | [], h => cases h; exact .firstData ..
    | [_], h => cases h; exact .clkRise [] ..
    | [_, _], h => cases h; exact .clkFall ..
    | _ :: _ :: _ :: tail, h =>
      simp only [List.cons_append, List.cons.injEq] at h
      obtain ⟨rfl, rfl, rfl, htail⟩ := h
      exact (ih htail).pulse_append b

/-- Every event of a transmission keeps the order (R54). -/
theorem inLineOrder_of_transmission {c : Config} {cmd : Byte} {value : Nat → Drive}
    (h : transmission c cmd value = pre ++ e :: post) : InLineOrder pre e post :=
  inLineOrder_of_pulses _ (transmission_eq_pulses c cmd value ▸ h)

end Sys2Proof.Machine

namespace Sys2Proof.Proofs

open Sys2Proof.Machine

/-- Settles O25: each event of a transmission keeps the line order, and each clause reads it at one kind of event. -/
theorem lineOrderWithinATransmission : Obligations.LineOrderWithinATransmission := by
  intro c cmd value
  refine ⟨fun pre post v h => ?_, fun pre post h => ?_, fun pre post h => ?_⟩
  · cases inLineOrder_of_transmission h with
    | firstData => exact .inl rfl
    | nextData pre => exact .inr ⟨pre, rfl⟩
  · cases inLineOrder_of_transmission h with
    | clkRise pre b post => exact ⟨⟨pre, b, rfl⟩, post, rfl⟩
  · cases inLineOrder_of_transmission h with
    | latchRise pre => exact ⟨⟨pre, rfl⟩, rfl⟩

end Sys2Proof.Proofs
end

section
/-! The decoder (spec/30_encoding.md R69 to R74, R63): one equation for each selector, the rejected payload, the wire
codes, and the way back from an encoded instruction. -/

namespace Sys2Proof

open Sys2Proof.Laws

/-! ### Request words -/

section
variable {w : ReqWord} {p : List Byte}

theorem decodeWord_hostInit (h : (opField w).toNat = 0) : decodeWord w [] = .ok .hostInit := by
  simp [decodeWord, decodeOp, h]

theorem decodeWord_setAnodeVoltage (h : (opField w).toNat = 1) :
    decodeWord w [] = .ok (.setAnodeVoltage (valField w)) := by
  simp [decodeWord, decodeOp, h]

theorem decodeWord_setAll (h : (opField w).toNat = 2) : decodeWord w [] = .ok (.setAll (valField w)) := by
  simp [decodeWord, decodeOp, h]

theorem decodeWord_setSymbol (h : (opField w).toNat = 3) :
    decodeWord w [] = .ok (.setSymbol (idxField w) (valField w)) := by
  simp [decodeWord, decodeOp, h]

theorem decodeWord_renderDigit (h : (opField w).toNat = 4) :
    decodeWord w [] = .ok (.renderDigit (chrField w) (idxField w) (valField w)) := by
  simp [decodeWord, decodeOp, h]

theorem decodeWord_commitFrame (h : (opField w).toNat = 5) : decodeWord w [] = .ok .commitFrame := by
  simp [decodeWord, decodeOp, h]

theorem decodeWord_setCalibration (h : (opField w).toNat = 6) :
    decodeWord w p = .ok (.setCalibration (flagField w) p) := by
  simp [decodeWord, decodeOp, h]

theorem decodeWord_setCalibrationEnabled (h : (opField w).toNat = 7) :
    decodeWord w [] = .ok (.setCalibrationEnabled (flagField w)) := by
  simp [decodeWord, decodeOp, h]

/-- The selectors from 8 on are the reserved ones (R73). -/
theorem decodeWord_reserved (h : 8 ≤ (opField w).toNat) : decodeWord w [] = .ok (.reserved (selField w)) := by
  have hop : decodeOp w [] = .reserved (selField w) := by
    unfold decodeOp
    split
    case h_9 => rfl
    all_goals omega
  simp [decodeWord, hop]

theorem decodeWord_unexpectedPayload (hop : (opField w).toNat ≠ 6) (hp : p ≠ []) :
    decodeWord w p = .error .unexpectedPayload := by
  simp [decodeWord, hop, hp]

/-- A reserved selector's number is the low part of `OP` (R73). -/
theorem selField_eq (w : ReqWord) : selField w = (opField w).setWidth 3 := by
  apply BitVec.eq_of_getLsbD_eq
  intro k hk
  simp [selField, opField, hk, show k < 4 by omega]

end

/-! ### Wire codes -/

variable {c : Config}

/-- A command's code decodes to its instruction (R63, D7). -/
theorem decode_wire_code (c : Config) (w : WireCommand) : decode c (.wire (c.code w)) = .ok w.instr := by
  simp only [decode, decodeWire, wireOf_code]

/-- A byte that is no command's code stands for no command (R63). -/
theorem wireOf_eq_none {code : Byte} (h : ∀ w : WireCommand, code ≠ c.code w) : c.wireOf code = none :=
  (if_neg (h .updatePwm)).trans <| (if_neg (h .enablePwm)).trans <| (if_neg (h .disablePwm)).trans <|
    (if_neg (h .toggleCorrection)).trans <| (if_neg (h .updateCorrection)).trans <| if_neg (h .togglePhaseShift)

theorem decode_wire_unknown {code : Byte} (h : ∀ w : WireCommand, code ≠ c.code w) :
    decode c (.wire code) = .error .unknownWireCode := by
  simp only [decode, decodeWire, wireOf_eq_none h]

/-! ### Decoding an encoded instruction -/

/-- The instruction's row gives the selector or the code, and the packed fields give the operands back. -/
theorem decode_encode (c : Config) (i : Instr) : decode c (encode c i) = .ok i := by
  cases i with
  | hostInit =>
    obtain ⟨hop, -⟩ := EncodedRow.hostInit c
    exact decodeWord_hostInit hop
  | setAnodeVoltage volts =>
    obtain ⟨hop, -⟩ := EncodedRow.setAnodeVoltage volts c
    have h := decodeWord_setAnodeVoltage hop
    rwa [valField_packWord] at h
  | setAll value =>
    obtain ⟨hop, -⟩ := EncodedRow.setAll value c
    have h := decodeWord_setAll hop
    rwa [valField_packWord] at h
  | setSymbol symbol value =>
    obtain ⟨hop, -⟩ := EncodedRow.setSymbol symbol value c
    have h := decodeWord_setSymbol hop
    rwa [idxField_packWord, valField_packWord] at h
  | renderDigit char digit value =>
    obtain ⟨hop, -⟩ := EncodedRow.renderDigit char digit value c
    have h := decodeWord_renderDigit hop
    rwa [chrField_packWord, idxField_packWord, valField_packWord] at h
  | commitFrame =>
    obtain ⟨hop, -⟩ := EncodedRow.commitFrame c
    exact decodeWord_commitFrame hop
  | setCalibration persist values =>
    obtain ⟨hop, -⟩ := EncodedRow.setCalibration persist values c
    have h := decodeWord_setCalibration (p := values) hop
    rwa [flagField_packWord] at h
  | setCalibrationEnabled enable =>
    obtain ⟨hop, -⟩ := EncodedRow.setCalibrationEnabled enable c
    have h := decodeWord_setCalibrationEnabled hop
    rwa [flagField_packWord] at h
  | updatePwm => exact decode_wire_code c .updatePwm
  | toggleCorrection => exact decode_wire_code c .toggleCorrection
  | updateCorrection => exact decode_wire_code c .updateCorrection
  | enablePwm => exact decode_wire_code c .enablePwm
  | disablePwm => exact decode_wire_code c .disablePwm
  | togglePhaseShift => exact decode_wire_code c .togglePhaseShift
  | reserved sel =>
    obtain ⟨hop, -⟩ := EncodedRow.reserved sel c
    have hsel : ∀ k : BitVec 3, (1#1 ++ k).setWidth 3 = k := by decide
    have h := decodeWord_reserved hop
    rwa [selField_eq, opField_packWord, hsel] at h

end Sys2Proof

namespace Sys2Proof.Proofs

/-- Settles O1, by cases on the instruction. -/
theorem decodeOfEncode : Obligations.DecodeOfEncode := decode_encode

/-- Settles O2: one equation of the decoder for each line of the table. -/
theorem selectorTableDecode : Obligations.SelectorTableDecode := fun _ _ =>
  ⟨decodeWord_hostInit, decodeWord_setAnodeVoltage, decodeWord_setAll, decodeWord_setSymbol, decodeWord_renderDigit,
    decodeWord_commitFrame, decodeWord_setCalibration, decodeWord_setCalibrationEnabled, decodeWord_reserved,
    decodeWord_unexpectedPayload⟩

/-- Settles O3, by running the decoder on the nine words. -/
theorem writtenRequestWordsDecode : Obligations.WrittenRequestWordsDecode := by
  unfold Obligations.WrittenRequestWordsDecode
  decide

/-- Settles O4: the six codes are distinct, and the decoder compares a byte with each of them. -/
theorem wireCodesDecode : Obligations.WireCodesDecode :=
  fun c => ⟨decode_wire_code c, fun _ => decode_wire_unknown⟩

end Sys2Proof.Proofs
end

section
/-! The results of the operations (spec/30_encoding.md R72, R73; spec/60_exceptions.md R156): how many results each answer
appends, their codes, and two instructions whose outcome is fixed. -/

namespace Sys2Proof.Machine

/-- The operations that write the frame buffer are the host's (R75, R90 to R92). -/
theorem WritesFrame.isHostOperation {i : Instr} (h : WritesFrame i) : isHostOperation i = true := by
  obtain ⟨v, rfl⟩ | ⟨k, v, rfl⟩ | ⟨ch, d, v, rfl⟩ := h <;> rfl

/-- A wire command is no operation of the produced interface (R75). -/
theorem isHostOperation_wire_instr (w : WireCommand) : isHostOperation w.instr = false := by
  cases w <;> rfl

/-- One result for a host operation, none for a bare wire command (R72, R156, R110). -/
theorem Answer.results_eq {i : Instr} {s t : State} (h : Answer s i t) :
    if isHostOperation i then ∃ r, t.results = s.results ++ [r] else t.results = s.results := by
  cases h with
  | boot | calibrate _ _ _ => simp [isHostOperation]
  | rejected hi _ _ => simp [hi]
  | frame _ hi _ => simp [hi.isHostOperation]
  | voltage _ | commit _ | agreed _ | toggled _ _ => simp [isHostOperation]
  | @bare w values _ _ => simp [isHostOperation_wire_instr]

end Sys2Proof.Machine

namespace Sys2Proof.Proofs

open Sys2Proof.Machine

/-- Settles O10: each answer appends its own results. -/
theorem oneResultPerOperation : Obligations.OneResultPerOperation :=
  fun _ _ _ h => (exec_answer h).results_eq

/-- Settles O5, code by code. -/
theorem resultCodesFollowTheTable : Obligations.ResultCodesFollowTheTable := ⟨rfl, rfl, rfl, rfl, rfl, rfl⟩

/-- Settles O9: the instruction is the error return itself. -/
theorem reservedSelectorChangesNothing : Obligations.ReservedSelectorChangesNothing := fun _ _ => rfl

/-- Settles O32: the length is the first check of an accepted `setCalibration`. -/
theorem wrongPayloadLengthRefused : Obligations.WrongPayloadLengthRefused := by
  intro s persist values hready hlen
  show execSetCalibration persist values s = _
  rw [execSetCalibration, State.guarded_ready hready, if_pos hlen]

end Sys2Proof.Proofs
end

section
/-! The calibration-value encoding (spec/30_encoding.md R67, spec/42_calibration.md R100). -/

namespace Sys2Proof.Machine

/-- The shift loses no bit of a 6-bit value (R67). -/
theorem toNat_expand (v : CalVal) : (expand v).toNat = 64 * v.toNat := by
  have hv : v.toNat < 2 ^ 6 := v.isLt
  simp only [expand, BitVec.toNat_shiftLeft, BitVec.toNat_setWidth, Nat.shiftLeft_eq]
  omega

/-- The low six bits of an expanded value are zero (R67). -/
theorem getLsbD_expand_low (v : CalVal) {k : Nat} (hk : k < 6) : (expand v).getLsbD k = false := by
  simp [expand, hk]

/-- The high six bits of an expanded value are the value's (R67). -/
theorem getLsbD_expand_high (v : CalVal) {k : Nat} (hk : k < 6) : (expand v).getLsbD (k + 6) = v.getLsbD k := by
  simp [expand, show k + 6 < 12 by omega]

/-- Each entry of `expandAll` is its register expanded (R100). -/
theorem State.getElem?_expandAll (s : State) (i : Nat) : s.expandAll[i]? = (s.cal[i]?).map expand :=
  List.getElem?_map

end Sys2Proof.Machine

namespace Sys2Proof.Proofs

open Sys2Proof.Machine

/-- Settles O28: the bits of one value, then `expandAll` register by register, sent as any other array. -/
theorem calibrationExpansion : Obligations.CalibrationExpansion := by
  refine ⟨fun v => ⟨toNat_expand v, fun k hk => ⟨getLsbD_expand_low v hk, getLsbD_expand_high v hk⟩⟩, by decide,
    fun s => ⟨List.length_map _, fun i v hv => ?_, State.transmit_out ..⟩⟩
  rw [State.getElem?_expandAll, hv]
  rfl

end Sys2Proof.Proofs
end

section
/-! The layout of a frame (spec/30_encoding.md R61) and what a chip reads of its half (R66): a frame is two halves, each
the channels of a bank from the top one down, then the command. -/

namespace Sys2Proof.Machine

/-- An entry of a flattened list whose parts all have length `n`: which part, and where in it. -/
theorem getElem?_flatMap_of_length {α β : Type} {f : α → List β} {n : Nat} (hn : 0 < n)
    (hf : ∀ a, (f a).length = n) (l : List α) (t : Nat) :
    (l.flatMap f)[t]? = (l[t / n]?).bind fun a => (f a)[t % n]? := by
  induction l generalizing t with
  | nil => simp
  | cons a rest ih =>
    rw [List.flatMap_cons]
    rcases Nat.lt_or_ge t n with ht | ht
    · rw [List.getElem?_append_left (by rwa [hf]), Nat.div_eq_of_lt ht, Nat.mod_eq_of_lt ht]
      rfl
    · rw [List.getElem?_append_right (by rwa [hf]), hf, ih, Nat.div_eq_sub_div hn ht, Nat.mod_eq_sub_mod ht]
      rfl

/-- The bit of a field at each bit time, most significant first (R41). -/
theorem getElem?_msbFirst {n k : Nat} (v : BitVec n) (hk : k < n) : (msbFirst v)[k]? = some (v.getLsbD (n - 1 - k)) := by
  simp [msbFirst, hk, BitVec.getMsbD_eq_getLsbD]

theorem getElem?_channelsDown {top n k : Nat} (hk : k < n) : (channelsDown top n)[k]? = some (top - 1 - k) := by
  simp [channelsDown, hk]

/-- The half of a frame that ends in the chip of the channels below `top` (R61, R66). -/
def halfFrame (c : Config) (cmd : Byte) (value : Nat → Drive) (top : Nat) : List Bool :=
  (channelsDown top c.bank).flatMap (fun ch => msbFirst (value ch)) ++ msbFirst cmd

section
variable (c : Config) (cmd : Byte) (value : Nat → Drive)

/-- A frame is chip 2's half, then chip 1's (R61). -/
theorem frameBits_eq_halves :
    frameBits c cmd value = halfFrame c cmd value c.channelCount ++ halfFrame c cmd value c.bank :=
  List.append_assoc ..

theorem length_bank (top : Nat) :
    ((channelsDown top c.bank).flatMap fun ch => msbFirst (value ch)).length = 12 * c.bank := by
  rw [length_flatMap_msbFirst, length_channelsDown]

theorem length_halfFrame (top : Nat) : (halfFrame c cmd value top).length = 12 * c.bank + 8 := by
  rw [halfFrame, List.length_append, length_bank, length_msbFirst]

variable {t : Nat}

/-- The data bits of a half frame, twelve to a channel (R61). -/
theorem getElem?_halfFrame_data (top : Nat) (ht : t < 12 * c.bank) :
    (halfFrame c cmd value top)[t]? = some ((value (top - 1 - t / 12)).getLsbD (11 - t % 12)) := by
  rw [halfFrame, List.getElem?_append_left (by rwa [length_bank]),
    getElem?_flatMap_of_length (by omega) (fun _ => length_msbFirst _), getElem?_channelsDown (by omega),
    Option.bind_some, getElem?_msbFirst _ (by omega)]

/-- The command bits of a half frame, after the data (R61). -/
theorem getElem?_halfFrame_command (top : Nat) (hlow : 12 * c.bank ≤ t) (hhigh : t < 12 * c.bank + 8) :
    (halfFrame c cmd value top)[t]? = some (cmd.getLsbD (7 - (t - 12 * c.bank))) := by
  rw [halfFrame, List.getElem?_append_right (by rwa [length_bank]), length_bank, getElem?_msbFirst _ (by omega)]

/-- The bit times of chip 2's half (R61). -/
theorem getElem?_frameBits_first (ht : t < 12 * c.bank + 8) :
    (frameBits c cmd value)[t]? = (halfFrame c cmd value c.channelCount)[t]? := by
  rw [frameBits_eq_halves, List.getElem?_append_left (by rwa [length_halfFrame])]

/-- The bit times of chip 1's half (R61). -/
theorem getElem?_frameBits_second (ht : 12 * c.bank + 8 ≤ t) :
    (frameBits c cmd value)[t]? = (halfFrame c cmd value c.bank)[t - (12 * c.bank + 8)]? := by
  rw [frameBits_eq_halves, List.getElem?_append_right (by rwa [length_halfFrame]), length_halfFrame]

/-- A channel's value in a half frame reads back at its place (R66). -/
theorem fieldAt_halfFrame (top : Nat) {k : Nat} (hk : k < c.bank) :
    fieldAt 12 (halfFrame c cmd value top) (12 * k) = value (top - 1 - k) := by
  have hlen : k < (channelsDown top c.bank).length := by rwa [length_channelsDown]
  have hget : (channelsDown top c.bank)[k] = top - 1 - k := by simp [channelsDown]
  have hsplit := List.take_append_drop k (channelsDown top c.bank)
  rw [List.drop_eq_getElem_cons hlen, hget] at hsplit
  have h := fieldAt_append (value (top - 1 - k))
    (((channelsDown top c.bank).take k).flatMap fun ch => msbFirst (value ch))
    (((channelsDown top c.bank).drop (k + 1)).flatMap (fun ch => msbFirst (value ch)) ++ msbFirst cmd)
  rw [length_flatMap_msbFirst, List.length_take, Nat.min_eq_left hlen.le] at h
  rw [halfFrame, ← hsplit, List.flatMap_append, List.flatMap_cons]
  simpa only [List.append_assoc] using h

/-- The values a chip reads of its half: the bank's channels, the lowest first (R66). -/
theorem getElem?_bankValues_halfFrame {top j : Nat} (htop : c.bank ≤ top) (hj : j < c.bank) :
    (bankValues c (halfFrame c cmd value top))[j]? = some (value (top - c.bank + j)) := by
  have h := fieldAt_halfFrame c cmd value top (k := c.bank - 1 - j) (by omega)
  rw [show top - 1 - (c.bank - 1 - j) = top - c.bank + j by omega] at h
  simp [bankValues, hj, h]

end

end Sys2Proof.Machine

namespace Sys2Proof.Proofs

open Sys2Proof.Machine

/-- Settles O22: the sampled bits are the frame, whose two halves give one clause for each row of the table; the place
of a channel is the data clause at its own bit times. -/
theorem frameLayoutBitByBit : Obligations.FrameLayoutBitByBit := by
  intro c cmd value level t
  have hbank := two_mul_bank c
  have hupper {u : Nat} (hu : u < 12 * c.bank) : (frameBits c cmd value)[u]? =
      some ((value (c.channelCount - 1 - u / 12)).getLsbD (11 - u % 12)) := by
    rw [getElem?_frameBits_first _ _ _ (by omega), getElem?_halfFrame_data _ _ _ _ hu]
  have hlower {u : Nat} (hu : u < 12 * c.bank) : (frameBits c cmd value)[12 * c.bank + 8 + u]? =
      some ((value (c.bank - 1 - u / 12)).getLsbD (11 - u % 12)) := by
    rw [getElem?_frameBits_second _ _ _ (by omega), Nat.add_sub_cancel_left, getElem?_halfFrame_data _ _ _ _ hu]
  rw [sampled_transmission]
  refine ⟨hupper, fun hlow hhigh => ?_, fun hlow hhigh => ?_, fun hlow hhigh => ?_, fun hlow => ?_,
    fun ch k hk hlow hhigh => ?_, fun ch k hk hch => ?_⟩
  · rw [getElem?_frameBits_first _ _ _ hhigh, getElem?_halfFrame_command _ _ _ _ hlow hhigh]
  · obtain ⟨u, rfl⟩ := Nat.exists_eq_add_of_le hlow
    rw [hlower (by omega), Nat.add_sub_cancel_left]
  · rw [getElem?_frameBits_second _ _ _ (by omega), getElem?_halfFrame_command _ _ _ _ (by omega) (by omega),
      show t - (12 * c.bank + 8) - 12 * c.bank = t - (24 * c.bank + 8) by omega]
  · exact List.getElem?_eq_none (by rw [length_frameBits, Config.frameLength]; omega)
  · rw [hupper (by omega), show c.channelCount - 1 - (12 * (c.channelCount - 1 - ch) + k) / 12 = ch by omega,
      show (12 * (c.channelCount - 1 - ch) + k) % 12 = k by omega]
  · rw [Nat.add_assoc, hlower (by omega), show c.bank - 1 - (12 * (c.bank - 1 - ch) + k) / 12 = ch by omega,
      show (12 * (c.bank - 1 - ch) + k) % 12 = k by omega]

/-- Settles O23: each chip's half of the frame reads back, the far chip's with the upper bank. -/
theorem receiverReadsBackTheFrame : Obligations.ReceiverReadsBackTheFrame := by
  intro c cmd value level
  have hbank := two_mul_bank c
  rw [sampled_transmission]
  refine ⟨fun j hj => ?_, bankCommand_frameBits c cmd value⟩
  obtain ⟨hfirst, hsecond⟩ := frameBits_halves c cmd value
  rw [hfirst, hsecond, ← halfFrame, ← halfFrame, getElem?_bankValues_halfFrame c cmd value (by omega) hj,
    getElem?_bankValues_halfFrame c cmd value le_rfl hj, show c.channelCount - c.bank = c.bank by omega, Nat.sub_self,
    Nat.zero_add]
  exact ⟨rfl, rfl⟩

end Sys2Proof.Proofs
end

section
/-! GLYPH through `renderDigit` (spec/40_tables_glyph.md R83, R84; spec/41_framebuffer.md R92): the masks that a
well-formed configuration fixes, and what a drawn digit leaves in each register. -/

namespace Sys2Proof.Machine

variable {c : Config} {ch : Byte} {i : Nat}

/-! ### The masks that R84 fixes -/

theorem glyphOk_config (c : Config) : c.glyphOk = true := by
  have hwf := c.wf
  simp only [Params.wellFormed, Bool.and_eq_true] at hwf
  obtain ⟨⟨⟨-, hglyph⟩, -⟩, -⟩ := hwf
  exact hglyph

theorem maskOf_eight (c : Config) : c.maskOf 0x38 = 0x7F := by
  have hglyph := glyphOk_config c
  simp only [Params.glyphOk, Bool.and_eq_true, decide_eq_true_eq] at hglyph
  obtain ⟨⟨⟨height, -⟩, -⟩, -⟩ := hglyph
  exact height

/-- Space, DEL and the control characters are the blank ones (R84b, R84c). -/
theorem maskOf_blank (c : Config) (h : ch = 0x20 ∨ ch = 0x7F ∨ ch.toNat < 0x20) : c.maskOf ch = 0 := by
  have hglyph := glyphOk_config c
  simp only [Params.glyphOk, Bool.and_eq_true, decide_eq_true_eq] at hglyph
  obtain ⟨⟨⟨-, hspace⟩, hdel⟩, hcontrol⟩ := hglyph
  obtain rfl | rfl | hch := h
  · exact hspace
  · exact hdel
  · simpa using List.all_eq_true.mp hcontrol _ (List.mem_range.mpr hch)

theorem lit_eight (hi : i < 7) : lit c 0x38 i = true := by
  rw [lit, segmentsForCharacter, maskOf_eight]
  interval_cases i <;> rfl

theorem lit_blank (h : ch = 0x20 ∨ ch = 0x7F ∨ ch.toNat < 0x20) : lit c ch i = false := by
  rw [lit, segmentsForCharacter, maskOf_blank c h]
  exact BitVec.getLsbD_zero

/-! ### A drawn digit, register by register -/

section
variable {d j : Nat} {v : Drive} {fb : List Drive}

theorem length_writeSegment (v : Drive) (fb : List Drive) (slot : Option Nat × Bool) :
    (writeSegment v fb slot).length = fb.length := by
  obtain ⟨_ | k, on⟩ := slot
  · rfl
  · exact List.length_set

/-- A slot writes the register of its own symbol and no other (R92, D13). -/
theorem getElem?_writeSegment (hj : j < fb.length) (slot : Option Nat × Bool) :
    (writeSegment v fb slot)[j]? = if slot.1 = some j then some (if slot.2 then v else 0) else fb[j]? := by
  obtain ⟨_ | k, on⟩ := slot
  · rfl
  · by_cases hk : k = j
    · subst hk
      simp [writeSegment, hj]
    · simp [writeSegment, hk]

/-- A register that every slot of its symbol writes alike holds that value, if it held it before or has a slot. -/
theorem getElem?_foldl_writeSegment {x : Drive} {slots : List (Option Nat × Bool)} (hj : j < fb.length)
    (hwrite : ∀ slot ∈ slots, slot.1 = some j → (if slot.2 then v else 0) = x)
    (hx : fb[j]? = some x ∨ ∃ slot ∈ slots, slot.1 = some j) :
    (slots.foldl (writeSegment v) fb)[j]? = some x := by
  induction slots generalizing fb with
  | nil => simpa using hx
  | cons slot rest ih =>
    simp only [List.forall_mem_cons, List.exists_mem_cons_iff] at hwrite hx
    obtain ⟨hslot, hrest⟩ := hwrite
    refine ih ((length_writeSegment ..).symm ▸ hj) hrest ?_
    rw [getElem?_writeSegment hj]
    by_cases hsym : slot.1 = some j
    · exact .inl (by rw [if_pos hsym, hslot hsym])
    · simpa [hsym] using hx

/-- When all seven segments are lit alike, the order of the slots does not matter. -/
theorem getElem?_drawDigit_of_lit {on : Bool} (hlit : ∀ k, k < 7 → lit c ch k = on) (hi : i < 7)
    (hseg : segmentSymbol c d i = some j) (hj : j < fb.length) :
    (drawDigit c ch d v fb)[j]? = some (if on then v else 0) := by
  refine getElem?_foldl_writeSegment hj (fun slot hslot _ => ?_)
    (.inr ⟨_, List.mem_map_of_mem (List.mem_range.mpr hi), hseg⟩)
  obtain ⟨k, hk, rfl⟩ := List.mem_map.mp hslot
  rw [hlit k (List.mem_range.mp hk)]

end

/-! ### `renderDigit` -/

section
variable {s : State} {d : Byte} {v : Operand}

/-- `renderDigit` of a legal digit and a legal value (R92). -/
theorem exec_renderDigit (hready : s.Ready) (hd : d.toNat < s.cfg.digitCount) (hv : v.toNat ≤ 4095) :
    exec (.renderDigit ch d v) s =
      .next ((s.setFb (drawDigit s.cfg ch d.toNat (v.setWidth 12) s.fb)).withResult .ok) := by
  show execRenderDigit ch d v s = _
  rw [execRenderDigit, State.guarded_ready hready, if_neg (Nat.ne_zero_of_lt hd), digitOperand_of_lt hd,
    driveOperand_of_le hv]
  rfl

/-- A character whose seven segments are alike gives every connected slot's symbol one value. -/
theorem exec_renderDigit_of_lit {on : Bool} (hready : s.Ready) (hsized : s.Sized)
    (hd : d.toNat < s.cfg.digitCount) (hv : v.toNat ≤ 4095) (hlit : ∀ k, k < 7 → lit s.cfg ch k = on) :
    ∃ t, exec (.renderDigit ch d v) s = .next t ∧ ∀ i j, i < 7 → segmentSymbol s.cfg d.toNat i = some j →
      t.fb[j]? = some (if on then v.setWidth 12 else 0) :=
  ⟨_, exec_renderDigit hready hd hv, fun _ _ hi hseg =>
    getElem?_drawDigit_of_lit hlit hi hseg (hsized.1.symm ▸ segmentSymbol_lt hseg)⟩

end

end Sys2Proof.Machine

namespace Sys2Proof.Proofs

open Sys2Proof.Machine

/-- Settles O16: `'8'` lights all seven segments and a blank character none, so each connected slot writes the same
value. -/
theorem glyphEightLightsAndSpaceBlanks : Obligations.GlyphEightLightsAndSpaceBlanks := by
  intro s ch d v hready hsized hd hv
  constructor
  · rintro rfl
    exact exec_renderDigit_of_lit hready hsized hd hv fun _ => lit_eight
  · intro hblank
    exact exec_renderDigit_of_lit hready hsized hd hv fun _ _ => lit_blank hblank

end Sys2Proof.Proofs
end

section
/-! The frame buffer operations (spec/41_framebuffer.md R90 to R92, R94): one equation for each way that `setAll`,
`setSymbol` and `renderDigit` complete, and what a drawn digit leaves in each register when two slots share a symbol. -/

namespace Sys2Proof.Machine

variable {s : State}

/-! ### `setAll` and `setSymbol` -/

section
variable {k : Byte} {v : Operand}

/-- `setAll` of a legal value (R90). -/
theorem exec_setAll (hready : s.Ready) (hv : v.toNat ≤ 4095) :
    exec (.setAll v) s =
      .next ((s.setFb (List.replicate s.cfg.symbolCount (v.setWidth 12))).withResult .ok) := by
  show execSetAll v s = _
  rw [execSetAll, State.guarded_ready hready, driveOperand_of_le hv]
  rfl

theorem exec_setAll_of_gt (hready : s.Ready) (hv : 4095 < v.toNat) :
    exec (.setAll v) s = .next (s.withResult (.err .outOfRange)) := by
  show execSetAll v s = _
  rw [execSetAll, State.guarded_ready hready, driveOperand_of_gt hv]
  rfl

/-- `setSymbol` of a legal symbol and a legal value (R91). -/
theorem exec_setSymbol (hready : s.Ready) (hv : v.toNat ≤ 4095) (hk : k.toNat < s.cfg.symbolCount) :
    exec (.setSymbol k v) s = .next ((s.setFb (s.fb.set k.toNat (v.setWidth 12))).withResult .ok) := by
  show execSetSymbol k v s = _
  rw [execSetSymbol, State.guarded_ready hready, driveOperand_of_le hv, symbolOperand_of_lt hk]
  rfl

/-- The value is checked before the symbol, which may be any (D14). -/
theorem exec_setSymbol_of_gt (hready : s.Ready) (hv : 4095 < v.toNat) :
    exec (.setSymbol k v) s = .next (s.withResult (.err .outOfRange)) := by
  show execSetSymbol k v s = _
  rw [execSetSymbol, State.guarded_ready hready, driveOperand_of_gt hv]
  rfl

theorem exec_setSymbol_of_ge (hready : s.Ready) (hv : v.toNat ≤ 4095) (hk : s.cfg.symbolCount ≤ k.toNat) :
    exec (.setSymbol k v) s = .next (s.withResult (.err .invalidIndex)) := by
  show execSetSymbol k v s = _
  rw [execSetSymbol, State.guarded_ready hready, driveOperand_of_le hv, symbolOperand_of_ge hk]
  rfl

/-- A value that passes the range check is narrowed without loss (R74). -/
theorem toNat_setWidth_drive (hv : v.toNat ≤ 4095) : (v.setWidth 12).toNat = v.toNat := by
  rw [BitVec.toNat_setWidth, Nat.mod_eq_of_lt (by omega)]

end

/-! ### The errors of `renderDigit` -/

section
variable {ch d : Byte} {v : Operand}

/-- The product is checked first: digit and value may be any (D12, D14). -/
theorem exec_renderDigit_of_digitCount_eq_zero (hready : s.Ready) (hzero : s.cfg.digitCount = 0) :
    exec (.renderDigit ch d v) s = .next (s.withResult (.err .unsupportedProduct)) := by
  show execRenderDigit ch d v s = _
  rw [execRenderDigit, State.guarded_ready hready, if_pos hzero]
  rfl

/-- The digit is checked before the value, which may be any (D14). -/
theorem exec_renderDigit_of_ge (hready : s.Ready) (hpos : 0 < s.cfg.digitCount)
    (hd : s.cfg.digitCount ≤ d.toNat) :
    exec (.renderDigit ch d v) s = .next (s.withResult (.err .invalidIndex)) := by
  show execRenderDigit ch d v s = _
  rw [execRenderDigit, State.guarded_ready hready, if_neg hpos.ne', digitOperand_of_ge hd]
  rfl

theorem exec_renderDigit_of_gt (hready : s.Ready) (hd : d.toNat < s.cfg.digitCount) (hv : 4095 < v.toNat) :
    exec (.renderDigit ch d v) s = .next (s.withResult (.err .outOfRange)) := by
  show execRenderDigit ch d v s = _
  rw [execRenderDigit, State.guarded_ready hready, if_neg (Nat.ne_zero_of_lt hd), digitOperand_of_lt hd,
    driveOperand_of_gt hv]
  rfl

end

/-! ### A drawn digit whose slots may share a symbol (D21) -/

section
variable {c : Config} {ch : Byte} {d i j : Nat} {v : Drive} {fb : List Drive} {slots : List (Option Nat × Bool)}

/-- Slots of other symbols leave a register alone, whether it exists or not. -/
theorem getElem?_foldl_writeSegment_of_ne (hne : ∀ slot ∈ slots, slot.1 ≠ some j) :
    (slots.foldl (writeSegment v) fb)[j]? = fb[j]? := by
  induction slots generalizing fb with
  | nil => rfl
  | cons slot rest ih =>
    obtain ⟨hslot, hrest⟩ := List.forall_mem_cons.mp hne
    rw [List.foldl_cons, ih hrest]
    obtain ⟨_ | k, on⟩ := slot
    · rfl
    · exact List.getElem?_set_ne fun hk => hslot (congrArg some hk)

/-- The last slot of a symbol decides its register: the slots before it are overwritten, those after it write other
registers (D21). -/
theorem getElem?_foldl_writeSegment_of_last {before after : List (Option Nat × Bool)} {on : Bool}
    (hj : j < fb.length) (hlast : ∀ slot ∈ after, slot.1 ≠ some j) :
    ((before ++ (some j, on) :: after).foldl (writeSegment v) fb)[j]? = some (if on then v else 0) := by
  induction before generalizing fb with
  | nil =>
    rw [List.nil_append, List.foldl_cons, getElem?_foldl_writeSegment_of_ne hlast, getElem?_writeSegment hj,
      if_pos rfl]
  | cons slot rest ih => exact ih ((length_writeSegment ..).symm ▸ hj)

/-- The decoder's output around slot `i`: the slots after it have the higher indices (R83). -/
theorem decodeGlyph_split (c : Config) (ch : Byte) (d : Nat) (hi : i < 7) :
    ∃ before after, decodeGlyph c ch d = before ++ (segmentSymbol c d i, lit c ch i) :: after ∧
      ∀ slot ∈ after, ∃ i', i < i' ∧ i' < 7 ∧ slot.1 = segmentSymbol c d i' := by
  have hlen : i < (decodeGlyph c ch d).length := by simpa [decodeGlyph] using hi
  refine ⟨(decodeGlyph c ch d).take i, (decodeGlyph c ch d).drop (i + 1), ?_, fun slot hslot => ?_⟩
  · have hget : (decodeGlyph c ch d)[i] = (segmentSymbol c d i, lit c ch i) := by simp [decodeGlyph]
    rw [← hget, ← List.drop_eq_getElem_cons hlen, List.take_append_drop]
  · obtain ⟨n, hn, rfl⟩ := List.mem_iff_getElem.mp hslot
    have hn : n < 7 - (i + 1) := by simpa [decodeGlyph] using hn
    exact ⟨i + 1 + n, by omega, by omega, by simp [decodeGlyph]⟩

theorem getElem?_drawDigit_of_last (hj : j < fb.length) (hi : i < 7) (hseg : segmentSymbol c d i = some j)
    (hlast : ∀ i', i < i' → i' < 7 → segmentSymbol c d i' ≠ some j) :
    (drawDigit c ch d v fb)[j]? = some (if lit c ch i then v else 0) := by
  obtain ⟨before, after, hsplit, hafter⟩ := decodeGlyph_split c ch d hi
  rw [drawDigit, hsplit, hseg]
  refine getElem?_foldl_writeSegment_of_last hj fun slot hslot => ?_
  obtain ⟨i', hlt, hi', hslot⟩ := hafter slot hslot
  exact hslot ▸ hlast i' hlt hi'

theorem getElem?_drawDigit_of_ne (hne : ∀ i, i < 7 → segmentSymbol c d i ≠ some j) :
    (drawDigit c ch d v fb)[j]? = fb[j]? := by
  refine getElem?_foldl_writeSegment_of_ne fun slot hslot => ?_
  obtain ⟨i, hi, rfl⟩ := List.mem_map.mp hslot
  exact hne i (List.mem_range.mp hi)

end

/-! ### In memory only -/

/-- The answers of a frame operation: an error, or a written frame (R94). -/
theorem Answer.eq_of_writesFrame {i : Instr} {t : State} (h : Answer s i t) (hi : WritesFrame i) :
    t = { s with fb := t.fb, results := t.results } := by
  cases h with
  | rejected _ _ _ => rfl
  | frame _ _ _ => rfl
  | boot | voltage _ | commit _ | calibrate _ _ _ | agreed _ | toggled _ _ => simp [WritesFrame] at hi
  | @bare w _ _ _ => exact absurd hi.isHostOperation (by simp [isHostOperation_wire_instr])

end Sys2Proof.Machine

namespace Sys2Proof.Proofs

open Sys2Proof.Machine

/-- Settles O13: `setSymbol` writes one register of `FB`, which exists, with a value that fits it. -/
theorem setSymbolReadsBack : Obligations.SetSymbolReadsBack := by
  intro s k v hready ⟨hfb, _⟩ hv hk
  refine ⟨_, exec_setSymbol hready hv hk, ⟨v.setWidth 12, ?_, toNat_setWidth_drive hv⟩, fun j hj => ?_⟩
  · exact List.getElem?_set_self (hfb.symm ▸ hk)
  · exact List.getElem?_set_ne hj.symm

/-- Settles O14: the digit is drawn into `FB`, where the last slot of a symbol stands. -/
theorem renderDigitSetsSevenSegments : Obligations.RenderDigitSetsSevenSegments := by
  intro s ch d v hready ⟨hfb, _⟩ hd hv
  refine ⟨_, exec_renderDigit hready hd hv, rfl, fun i j hi hseg hlast => ?_, fun j hne => ?_⟩
  · exact getElem?_drawDigit_of_last (hfb.symm ▸ segmentSymbol_lt hseg) hi hseg hlast
  · exact getElem?_drawDigit_of_ne hne

/-- Settles O17: each of the three operations is a frame operation, whose answers write `FB` at most. -/
theorem frameOperationsAreInMemoryOnly : Obligations.FrameOperationsAreInMemoryOnly := by
  intro s t ch k v h
  obtain h | h | h := h
  · exact (exec_answer h).eq_of_writesFrame (.inl ⟨v, rfl⟩)
  · exact (exec_answer h).eq_of_writesFrame (.inr (.inl ⟨k, v, rfl⟩))
  · exact (exec_answer h).eq_of_writesFrame (.inr (.inr ⟨ch, k, v, rfl⟩))

/-- Settles O11, one equation of `setAll` for each clause. -/
theorem setAllEffect : Obligations.SetAllEffect :=
  fun _ _ hready => ⟨exec_setAll hready, exec_setAll_of_gt hready⟩

/-- Settles O12, one equation of `setSymbol` for each clause. -/
theorem setSymbolEffect : Obligations.SetSymbolEffect :=
  fun _ _ _ hready => ⟨exec_setSymbol hready, exec_setSymbol_of_gt hready, exec_setSymbol_of_ge hready⟩

/-- Settles O15, one equation of `renderDigit` for each error. -/
theorem renderDigitErrorsInOrder : Obligations.RenderDigitErrorsInOrder :=
  fun _ _ _ _ hready => ⟨exec_renderDigit_of_digitCount_eq_zero hready, exec_renderDigit_of_ge hready,
    exec_renderDigit_of_gt hready⟩

end Sys2Proof.Proofs
end

section
/-! The two calibration operations (spec/42_calibration.md R101, R102, R104): one equation for each way that
`setCalibration` of `SYMBOL_COUNT` entries and `setCalibrationEnabled` complete, and what a persisting `setCalibration`
leaves in the store. -/

namespace Sys2Proof.Machine

variable {s : State}

/-- Where a transmission leaves the state: the events out, the lines low, and the chips on their own (R110, R114). -/
theorem State.transmit_eq (w : WireCommand) (values : List Drive) (s : State) :
    s.transmit w values = { s with
      out := s.out ++ transmission s.cfg (s.cfg.code w) (channelValue s.cfg values)
      data := false
      clk := false
      latch := false
      chips := (s.transmit w values).chips
      draws := (s.transmit w values).draws } := by
  apply State.ext <;> simp

/-! ### `setCalibrationEnabled` -/

section
variable {enable : Bool}

theorem exec_setCalibrationEnabled_of_eq (hready : s.Ready) (heq : enable = s.calEn) :
    exec (.setCalibrationEnabled enable) s = .next (s.withResult .ok) := by
  show execSetCalibrationEnabled enable s = _
  rw [execSetCalibrationEnabled, State.guarded_ready hready, if_pos heq]
  rfl

theorem exec_setCalibrationEnabled_of_ne (hready : s.Ready) (hne : enable ≠ s.calEn) :
    exec (.setCalibrationEnabled enable) s =
      .next (((s.transmit .toggleCorrection s.fb).setCalEn enable).withResult .ok) := by
  show execSetCalibrationEnabled enable s = _
  rw [execSetCalibrationEnabled, State.guarded_ready hready, if_neg hne]
  rfl

end

/-! ### `setCalibration` -/

section
variable {persist : Bool} {values : List Byte}

theorem exec_setCalibration_of_gt (hready : s.Ready) (hlen : values.length = s.cfg.symbolCount)
    (hval : ∃ v ∈ values, 63 < v.toNat) :
    exec (.setCalibration persist values) s = .next (s.withResult (.err .outOfRange)) := by
  show execSetCalibration persist values s = _
  rw [execSetCalibration, State.guarded_ready hready, if_neg (not_not.mpr hlen), calOperands_of_gt hval]
  rfl

/-- Narrowing an entry to its register and expanding it again loses no bit that is sent: the shift drops the same two
(R67, R74). -/
theorem expand_setWidth (v : Byte) : expand (v.setWidth 6) = (v.setWidth 12 : Drive) <<< 6 := by
  apply BitVec.eq_of_getLsbD_eq
  intro i hi
  by_cases hlow : i < 6
  · simp [expand, hlow]
  · simp [expand, hi, hlow, show i - 6 < 6 by omega]

theorem State.expandAll_of_cal (h : s.cal = calEntries values) :
    s.expandAll = values.map fun v : Byte => (v.setWidth 12 : Drive) <<< 6 := by
  rw [State.expandAll, h, calEntries, List.map_map]
  exact List.map_congr_left fun v _ => expand_setWidth v

/-- The image that is written is the array itself (R43, D9). -/
theorem persistEvents_setCal (hval : ∀ v ∈ values, v.toNat ≤ 63) (persist : Bool) :
    persistEvents persist (s.setCal (calEntries values)) =
      if persist then [.nvWrite s.cfg.calAddr values] else [] := by
  rw [persistEvents, State.calImage_setCal hval, State.setCal_cfg]

@[simp] theorem State.setCal_storeOk (entries : List CalVal) (s : State) :
    (s.setCal entries).storeOk = s.storeOk := rfl

/-- Only a persisting access can fail, and it fails as its draw says (R101, R154). -/
@[simp] theorem storeResult_persistCal (persist : Bool) (s : State) :
    storeResult (s.persistCal persist).1 = if persist && !s.storeOk then .err .persistenceFailure else .ok := by
  cases persist with
  | false => rfl
  | true => rw [State.persistCal_true_fst]; cases s.storeOk <;> rfl

@[simp] theorem State.persistCal_storeDraws (persist : Bool) (s : State) :
    (s.persistCal persist).2.storeDraws = if persist then s.storeDraws.tail else s.storeDraws := by
  cases persist <;> rfl

/-! ### The store after a write access -/

variable {addr a i : Nat} {bytes : List Byte} {v : Byte}

/-- A write access touches no byte outside its range, whether it succeeds or fails (U6). -/
theorem State.read_storeAfterWrite_outside (hwf : Memory.wf s.ps = true) (ha : a < addr ∨ addr + bytes.length ≤ a) :
    Memory.read (s.storeAfterWrite addr bytes) a = Memory.read s.ps a := by
  have hlen : (if s.storeOk then bytes else freeBytes (s.draws + 1) bytes.length).length = bytes.length := by
    split <;> simp [freeBytes]
  rw [State.storeAfterWrite, Memory.read_writeBytes _ _ _ hwf, hlen, if_neg (by omega)]

/-- A write access that succeeds leaves its bytes (R29). -/
theorem State.read_storeAfterWrite_inside (hwf : Memory.wf s.ps = true) (hok : s.storeOk = true)
    (hv : bytes[i]? = some v) : Memory.read (s.storeAfterWrite addr bytes) (addr + i) = v := by
  obtain ⟨hi, -⟩ := List.getElem?_eq_some_iff.mp hv
  rw [State.storeAfterWrite, if_pos hok, Memory.read_writeBytes _ _ _ hwf, if_pos ⟨by omega, by omega⟩,
    Nat.add_sub_cancel_left, List.getD_eq_getElem?_getD, hv, Option.getD_some]

/-- The store after a persisting `setCalibration` of valid entries is the store after one write access of those entries
at `CAL_ADDR` (R43, R101). -/
theorem ps_of_setCalibration {t : State} (hready : s.Ready) (hlen : values.length = s.cfg.symbolCount)
    (hval : ∀ v ∈ values, v.toNat ≤ 63) (h : exec (.setCalibration true values) s = .next t) :
    t.ps = s.storeAfterWrite s.cfg.calAddr values := by
  rw [exec_setCalibration hready hlen hval, Host.Outcome.next.injEq] at h
  subst h
  show (s.setCal (calEntries values)).storeAfterWrite s.cfg.calAddr (s.setCal (calEntries values)).calImage = _
  rw [State.calImage_setCal hval]
  rfl

end

end Sys2Proof.Machine

namespace Sys2Proof.Proofs

open Sys2Proof.Machine

/-- Settles O29, field by field: the fields of the calibration, the store access and the transmission. -/
theorem setCalibrationEffect : Obligations.SetCalibrationEffect := by
  intro s persist values hready hlen hval
  refine ⟨_, exec_setCalibration hready hlen hval, ?_, ?_⟩
  · have hexpand := State.expandAll_of_cal ((s.setCal (calEntries values)).persistCal_cal persist)
    have hevents := persistEvents_setCal (s := s) hval persist
    apply State.ext <;> simp [hexpand, hevents, Config.code]
  · rintro rfl
    rfl

/-- Settles O30: the store is as one write access leaves it. -/
theorem setCalibrationWritesTheImage : Obligations.SetCalibrationWritesTheImage := by
  intro s t values hready hwf hlen hval h
  rw [ps_of_setCalibration hready hlen hval h]
  exact ⟨fun a ha => State.read_storeAfterWrite_outside hwf (hlen ▸ ha),
    fun hok i v hv => State.read_storeAfterWrite_inside hwf hok hv⟩

/-- Settles O31: one entry above 63 fails the range check of the whole array. -/
theorem setCalibrationChecksEveryEntry : Obligations.SetCalibrationChecksEveryEntry :=
  fun _ _ _ hready hlen hval => exec_setCalibration_of_gt hready hlen hval

/-- Settles O34, one equation of `setCalibrationEnabled` for each clause. -/
theorem calibrationEnableEffect : Obligations.CalibrationEnableEffect := by
  intro s enable hready
  refine ⟨exec_setCalibrationEnabled_of_eq hready, fun hne =>
    ⟨_, exec_setCalibrationEnabled_of_ne hready hne, ?_⟩⟩
  rw [State.transmit_eq]
  rfl

/-- Settles O35: the first call toggles and sets the flag, so that the second finds it in agreement. -/
theorem enablingTwiceTogglesOnce : Obligations.EnablingTwiceTogglesOnce := by
  intro s hready hoff
  refine ⟨_, _, exec_setCalibrationEnabled_of_ne hready (by simp [hoff]),
    exec_setCalibrationEnabled_of_eq hready rfl, rfl, rfl, rfl, rfl⟩

end Sys2Proof.Proofs
end

section
/-! What a transmission sends (spec/43_serializer.md R111 to R115): the value of each channel, the bits of each field, the
steps of the algorithm, the counts of its events, and the clock before each rising edge. -/

namespace Sys2Proof.Machine

/-! ### The values sent -/

section
variable {c : Config} {values values' : List Drive} {ch : Nat}

/-- A connected channel sends its symbol's value (R111). -/
theorem channelValue_of_connected {i : Nat} (h : symbolForChannel c ch = some i) :
    channelValue c values ch = values.getD i 0 := by
  simp only [channelValue, h]

/-- An unconnected channel sends 0 (R111). -/
theorem channelValue_of_unconnected (h : symbolForChannel c ch = none) : channelValue c values ch = 0 := by
  simp only [channelValue, h]

/-- A channel's value depends on its own symbol only (R111). -/
theorem channelValue_congr (h : ∀ i, symbolForChannel c ch = some i → values.getD i 0 = values'.getD i 0) :
    channelValue c values ch = channelValue c values' ch := by
  cases hsym : symbolForChannel c ch with
  | none => rw [channelValue_of_unconnected hsym, channelValue_of_unconnected hsym]
  | some i => rw [channelValue_of_connected hsym, channelValue_of_connected hsym, h i hsym]

/-- The channels sent downwards from `top` are below it (R42). -/
theorem lt_of_mem_channelsDown {top n : Nat} (hn : n ≤ top) (h : ch ∈ channelsDown top n) : ch < top := by
  obtain ⟨k, hk, rfl⟩ := List.mem_map.mp h
  have := List.mem_range.mp hk
  omega

/-- A transmission depends on the values of the chain's channels only (R111, R113). -/
theorem transmission_congr {value value' : Nat → Drive} (cmd : Byte)
    (h : ∀ ch, ch < c.channelCount → value ch = value' ch) : transmission c cmd value = transmission c cmd value' := by
  have hbank := two_mul_bank c
  have hdata {top : Nat} (hlow : c.bank ≤ top) (htop : top ≤ c.channelCount) :
      (channelsDown top c.bank).flatMap (fun ch => emitField (value ch)) =
        (channelsDown top c.bank).flatMap fun ch => emitField (value' ch) :=
    List.flatMap_congr fun ch hch => by rw [h ch ((lt_of_mem_channelsDown hlow hch).trans_le htop)]
  rw [transmission, transmission, hdata (by omega) le_rfl, hdata le_rfl (by omega)]

end

/-! ### The counts of R115 -/

/-- Events that each pulse has `k` of, whatever its bit, are `k` to a bit (R64). -/
theorem countP_pulses {p : Event → Bool} {k : Nat} (hp : ∀ b, (pulse b).countP p = k) (bits : List Bool) :
    (bits.flatMap pulse).countP p = k * bits.length := by
  induction bits with
  | nil => rfl
  | cons b rest ih => rw [List.flatMap_cons, List.countP_append, hp, ih, List.length_cons, Nat.mul_succ, Nat.add_comm]

/-- The events of a transmission of one kind: those of its pulses and those of the terminator. -/
theorem countP_transmission {p : Event → Bool} {k : Nat} (hp : ∀ b, (pulse b).countP p = k) (c : Config) (cmd : Byte)
    (value : Nat → Drive) :
    (transmission c cmd value).countP p = k * (12 * c.channelCount + 16) + terminator.countP p := by
  rw [transmission_eq_pulses, List.countP_append, countP_pulses hp, length_frameBits, Config.frameLength]

/-- The length of a transmission (R115). -/
theorem length_transmission (c : Config) (cmd : Byte) (value : Nat → Drive) :
    (transmission c cmd value).length = 3 * (12 * c.channelCount + 16) + 3 := by
  rw [transmission_eq_pulses, List.length_append, length_flatMap_pulse, length_frameBits, Config.frameLength]
  rfl

/-! ### The clock line -/

/-- The clock is low before each data level of a transmission that starts with it low: such a level comes first or
follows a falling clock (R54, R114). -/
theorem clk_low_before_data {c : Config} {cmd : Byte} {value : Nat → Drive} {pre post : List Event} {b : Bool}
    (h : transmission c cmd value = pre ++ .level .data b :: post) : levelAfter .clk false pre = false := by
  cases inLineOrder_of_transmission h with
  | firstData => rfl
  | nextData pre => exact levelAfter_append ..

/-- The clock is low before each rising clock: a data level comes between, which leaves the clock alone (R114). -/
theorem clk_low_before_rise {c : Config} {cmd : Byte} {value : Nat → Drive} {pre post : List Event}
    (h : transmission c cmd value = pre ++ .level .clk true :: post) : levelAfter .clk false pre = false := by
  cases inLineOrder_of_transmission h with
  | clkRise pre b post =>
    rw [levelAfter_append, clk_low_before_data (h.trans (List.append_assoc ..))]
    rfl

end Sys2Proof.Machine

namespace Sys2Proof.Proofs

open Sys2Proof.Machine

/-- Settles O19: both values by their case of the lookup, and equal values on the chain make equal transmissions. -/
theorem channelValueFromItsSymbol : Obligations.ChannelValueFromItsSymbol :=
  fun _ _ => ⟨fun _ _ => channelValue_of_connected, fun _ => channelValue_of_unconnected,
    fun _ cmd h => transmission_congr cmd fun ch hch => channelValue_congr fun i hi => h ch i hch hi⟩

/-- Settles O20: the bit positions of a field, counted down from the top one. -/
theorem fieldsGoOutMostSignificantFirst : Obligations.FieldsGoOutMostSignificantFirst := by
  refine ⟨fun v => ?_, fun k => ?_, fun _ => rfl⟩
  · rw [emitField, msbFirst_eq_reverse]
    rfl
  · rw [emitField, msbFirst_eq_reverse]
    rfl

/-- Settles O21: `transmit` appends its transmission, written out. -/
theorem transmitFollowsTheFixedAlgorithm : Obligations.TransmitFollowsTheFixedAlgorithm := by
  intro s w values
  rw [State.transmit_out]
  simp only [transmission, channelsDown, Config.bank, terminator, List.append_assoc]

/-- Settles O24: three events with one rising clock to a bit, and the terminator with the one rising latch. -/
theorem transmissionCounts : Obligations.TransmissionCounts := by
  intro c cmd value
  have hclk : (transmission c cmd value).countP (fun e => decide (e = .level .clk true)) = 12 * c.channelCount + 16 :=
    (countP_transmission (k := 1) (by decide) c cmd value).trans (Nat.one_mul _)
  have hlatch : (transmission c cmd value).countP (fun e => decide (e = .level .latch true)) = 1 :=
    (countP_transmission (k := 0) (by decide) c cmd value).trans (by rw [Nat.zero_mul]; rfl)
  refine ⟨⟨frameBits c cmd value, length_frameBits .., ?_⟩, length_transmission .., hclk, hlatch, fun h => ?_⟩
  · rw [transmission_eq_pulses, List.append_assoc]
    rfl
  · rw [hclk, length_transmission, h]
    exact ⟨rfl, rfl⟩

/-- Settles O26: the clock before each rising edge, and the lines that `transmit` leaves. -/
theorem clockEdgesAreRealAndLinesEndLow : Obligations.ClockEdgesAreRealAndLinesEndLow := by
  intro s w values hclk
  rw [hclk]
  exact ⟨fun pre post => clk_low_before_rise, State.transmit_data .., State.transmit_clk .., State.transmit_latch ..⟩

end Sys2Proof.Proofs
end

section
/-! The frames that an instruction sends (spec/43_serializer.md R118, R123): which commands they carry, as a monitor of
`OUT` reads them. -/

namespace Sys2Proof.Machine

variable {c : Config} {out out' : List Event} {ws : List WireCommand}

/-- Each command has a code of its own (R10, D7). -/
theorem code_injective (c : Config) : Function.Injective c.code := fun v w h =>
  Option.some.inj (by rw [← wireOf_code c v, h, wireOf_code])

/-- `OUT` grows from `out` to `out'` by events that a monitor between frames reads as one whole frame for each command
of `ws`, with nothing left half sent. -/
def Sends (c : Config) (out out' : List Event) (ws : List WireCommand) : Prop :=
  ∃ evs, out' = out ++ evs ∧ ∀ m : Monitor, m.bits = [] →
    (m.after c evs).bits = [] ∧ (m.after c evs).sent = m.sent ++ ws.map fun w => (c.code w, c.code w)

theorem Sends.refl (c : Config) (out : List Event) : Sends c out out [] :=
  ⟨[], (List.append_nil _).symm, fun _ hm => ⟨hm, (List.append_nil _).symm⟩⟩

/-- Events that clock no bit in and complete no frame. -/
theorem Sends.append_quiet (h : Sends c out out' ws) {evs : List Event}
    (hevs : ∀ m : Monitor, m.bits = [] → (m.after c evs).bits = [] ∧ (m.after c evs).sent = m.sent) :
    Sends c out (out' ++ evs) ws := by
  obtain ⟨before, rfl, hbefore⟩ := h
  refine ⟨before ++ evs, List.append_assoc .., fun m hm => ?_⟩
  obtain ⟨hbits, hsent⟩ := hbefore m hm
  rw [Monitor.after_append, ← hsent]
  exact hevs _ hbits

/-- The reset hold raises the latch over an empty chain, which is no frame (R131). -/
theorem Sends.append_hold (h : Sends c out out' ws) : Sends c out (out' ++ holdEvents c) ws := by
  have hlen : ¬ 0 = c.frameLength := by simp [Config.frameLength]
  refine h.append_quiet fun m hm => ?_
  simp [holdEvents, Monitor.after, Monitor.onEvent, Monitor.onLatch, hm, hlen]

/-- A transmission is one frame of its command (R118). -/
theorem Sends.append_transmission (h : Sends c out out' ws) (w : WireCommand) (value : Nat → Drive) :
    Sends c out (out' ++ transmission c (c.code w) value) (ws ++ [w]) := by
  obtain ⟨before, rfl, hbefore⟩ := h
  refine ⟨before ++ transmission c (c.code w) value, List.append_assoc .., fun m hm => ?_⟩
  obtain ⟨hbits, hsent⟩ := hbefore m hm
  rw [Monitor.after_append, Monitor.after_transmission c hbits, hsent]
  simp

/-- The reset sequence is a frame of each mode command (R131). -/
theorem Sends.resetSequence {s : State} (h : Sends s.cfg out s.out []) :
    Sends s.cfg out s.resetSequence.out [.toggleCorrection, .togglePhaseShift, .enablePwm] := by
  rw [State.resetSequence_out]
  exact ((h.append_hold.append_transmission .toggleCorrection _).append_transmission .togglePhaseShift
    _).append_transmission .enablePwm _

/-- The frames of each answer: the reset sequence and the correction values of `hostInit`, at most one frame of any other
instruction, and never a disable-PWM (R123, R131). -/
theorem Answer.sends {i : Instr} {s t : State} (h : Answer s i t) :
    ∃ ws, Sends s.cfg s.out t.out ws ∧ .disablePwm ∉ ws := by
  have hstart := Sends.refl s.cfg s.out
  cases h with
  | boot =>
    refine ⟨[.toggleCorrection, .togglePhaseShift, .enablePwm, .updateCorrection], ?_, by decide⟩
    have hblank : Sends s.cfg s.out s.blankAndProgram.out [] := by
      rw [State.blankAndProgram_out]
      exact hstart.append_quiet fun _ hm => ⟨hm, rfl⟩
    have hreset := Sends.resetSequence (s := s.blankAndProgram) (by simpa using hblank)
    have hread := hreset.append_quiet (evs := [.nvRead s.cfg.calAddr s.cfg.symbolCount]) fun _ hm => ⟨hm, rfl⟩
    simpa using hread.append_transmission .updateCorrection _
  | rejected _ _ _ | frame _ _ _ | agreed _ => exact ⟨[], hstart, List.not_mem_nil⟩
  | @voltage v d _ =>
    exact ⟨[], by simpa using hstart.append_quiet (evs := [.pwm .anode (.duty d)]) fun _ hm => ⟨hm, rfl⟩,
      List.not_mem_nil⟩
  | commit _ => exact ⟨[.updatePwm], hstart.append_transmission .updatePwm _, by decide⟩
  | @calibrate persist values _ _ _ =>
    refine ⟨[.updateCorrection], ?_, by decide⟩
    have hwrite : Sends s.cfg s.out (s.out ++ persistEvents persist (s.setCal (calEntries values))) [] :=
      hstart.append_quiet fun _ hm => by cases persist <;> exact ⟨hm, rfl⟩
    simpa using hwrite.append_transmission .updateCorrection _
  | toggled _ _ => exact ⟨[.toggleCorrection], hstart.append_transmission .toggleCorrection _, by decide⟩
  | @bare w values _ hw =>
    exact ⟨[w], hstart.append_transmission w _, fun hmem => hw (List.mem_singleton.mp hmem).symm⟩

end Sys2Proof.Machine

namespace Sys2Proof.Proofs

open Sys2Proof.Machine

/-- Settles O43: the codes are distinct, and the frames of an answer carry the commands that `Answer.sends` lists. -/
theorem disablePwmIsNeverSent : Obligations.DisablePwmIsNeverSent := by
  refine ⟨fun c => ⟨rfl, fun w hw h => hw (code_injective c h).symm⟩, fun _ => rfl, fun i s t h => ?_⟩
  obtain ⟨ws, ⟨evs, hout, hsent⟩, hws⟩ := (exec_answer h).sends
  refine ⟨evs, hout, fun p hp => ?_⟩
  rw [(hsent Monitor.start rfl).2] at hp
  obtain ⟨w, hw, rfl⟩ := List.mem_map.mp hp
  exact ⟨rfl, fun hcode => hws (code_injective s.cfg hcode ▸ hw)⟩

end Sys2Proof.Proofs
end

section
/-! The bare wire commands (spec/43_serializer.md R118 to R125, entry 11): each is one transmission, and what it does to
the registers of each chip is said once, for every command that is sent. -/

namespace Sys2Proof.Machine

/-! ### One bare command at the block -/

/-- The values a bare command puts into the data slots: the expanded calibration for update-correction, else the frame
buffer (R119 to R125, D8). -/
def State.dataSlots (w : WireCommand) (s : State) : List Drive :=
  if w = .updateCorrection then s.expandAll else s.fb

/-- In a ready state a bare command but disable-PWM is one transmission (R118). -/
theorem exec_wire_instr {s : State} {w : WireCommand} (hready : s.Ready) (hw : w ≠ .disablePwm) :
    exec w.instr s = .next (s.transmit w (s.dataSlots w)) := by
  cases w with
  | disablePwm => exact absurd rfl hw
  | updatePwm | enablePwm | toggleCorrection | updateCorrection | togglePhaseShift =>
    exact State.sendBare_next.mpr ⟨hready, rfl⟩

/-! ### One frame at one chip -/

/-- What a frame of command `w`, of which a chip's half is `bits`, makes of the chip's registers (R30, R119 to R124;
entries 18 and 20). -/
structure Chip.Took (c : Config) (w : WireCommand) (bits : List Bool) (before after : Chip) : Prop where
  outReg : after.outReg = bits
  correction : after.correction = (before.correction ^^ decide (w = .toggleCorrection))
  phaseShift : after.phaseShift = (before.phaseShift ^^ decide (w = .togglePhaseShift))
  pwm : after.pwm = (before.pwm || decide (w = .enablePwm))
  corr : after.corr = if w = .updateCorrection then bankValues c bits else before.corr
  loads : w = .updatePwm → after.duty = bankValues c bits
  keeps : w = .updateCorrection → after.duty = before.duty

theorem Chip.took_takeFrame {c : Config} {w : WireCommand} (hw : w ≠ .disablePwm) {bits : List Bool}
    (hcmd : bankCommand c bits = c.code w) (d : Nat) (chip : Chip) : chip.Took c w bits (chip.takeFrame c d bits) := by
  rw [Chip.takeFrame, Chip.act, hcmd, wireOf_code]
  cases w with
  | disablePwm => exact absurd rfl hw
  | updatePwm | enablePwm | toggleCorrection | updateCorrection | togglePhaseShift => constructor <;> simp

/-! ### One frame at both chips -/

/-- A bare command that is sent does the same at both chips, each with its own half of the frame, and leaves the block
ready (R30b, R48, R66, R118). -/
theorem exec_wire_instr_took {s : State} {w : WireCommand} (hready : s.Ready) (hw : w ≠ .disablePwm) :
    ∃ t, exec w.instr s = .next t ∧ t.Ready ∧
      s.chips.chip2.Took s.cfg w
        (halfFrame s.cfg (s.cfg.code w) (channelValue s.cfg (s.dataSlots w)) s.cfg.channelCount) t.chips.chip2 ∧
      s.chips.chip1.Took s.cfg w
        (halfFrame s.cfg (s.cfg.code w) (channelValue s.cfg (s.dataSlots w)) s.cfg.bank) t.chips.chip1 := by
  obtain ⟨hcmd2, hcmd1⟩ := bankCommand_frameBits s.cfg (s.cfg.code w) (channelValue s.cfg (s.dataSlots w))
  obtain ⟨hfirst, hsecond⟩ := frameBits_halves s.cfg (s.cfg.code w) (channelValue s.cfg (s.dataSlots w))
  refine ⟨_, exec_wire_instr hready hw, hready, ?_⟩
  rw [State.transmit_chips, Chips.receive_eq_takeFrame, halfFrame, halfFrame, ← hfirst, ← hsecond]
  exact ⟨Chip.took_takeFrame hw hcmd2 .., Chip.took_takeFrame hw hcmd1 ..⟩

/-- Every channel's value stands in its chip's half of a frame (R61, R66). -/
theorem getElem?_bankValues_halves {c : Config} (cmd : Byte) (value : Nat → Drive) {j : Nat} (hj : j < c.bank) :
    (bankValues c (halfFrame c cmd value c.channelCount))[j]? = some (value (c.bank + j)) ∧
      (bankValues c (halfFrame c cmd value c.bank))[j]? = some (value j) := by
  have hbank := two_mul_bank c
  rw [getElem?_bankValues_halfFrame c cmd value (by omega) hj, getElem?_bankValues_halfFrame c cmd value le_rfl hj,
    show c.channelCount - c.bank = c.bank by omega, Nat.sub_self, Nat.zero_add]
  exact ⟨rfl, rfl⟩

end Sys2Proof.Machine

namespace Sys2Proof.Proofs

open Sys2Proof.Machine

/-- Settles O42: each of the five is the transmission of its command and data slots. -/
theorem wireCommandsSendWholeFrames : Obligations.WireCommandsSendWholeFrames := by
  intro s i code values hready hrow
  obtain ⟨w, hw, rfl, rfl, rfl⟩ : ∃ w : WireCommand, w ≠ .disablePwm ∧ i = w.instr ∧ code = s.cfg.code w ∧
      values = s.dataSlots w := by
    obtain ⟨rfl, rfl, rfl⟩ | ⟨rfl, rfl, rfl⟩ | ⟨rfl, rfl, rfl⟩ | ⟨rfl, rfl, rfl⟩ | ⟨rfl, rfl, rfl⟩ := hrow
    · exact ⟨.updatePwm, by decide, rfl, rfl, rfl⟩
    · exact ⟨.toggleCorrection, by decide, rfl, rfl, rfl⟩
    · exact ⟨.updateCorrection, by decide, rfl, rfl, rfl⟩
    · exact ⟨.enablePwm, by decide, rfl, rfl, rfl⟩
    · exact ⟨.togglePhaseShift, by decide, rfl, rfl, rfl⟩
  exact ⟨_, exec_wire_instr hready hw, State.transmit_eq ..⟩

/-- Settles O44: both chips take an update-PWM frame. -/
theorem updatePwmReachesEveryChannel : Obligations.UpdatePwmReachesEveryChannel := by
  intro s hready
  obtain ⟨t, hexec, -, h2, h1⟩ := exec_wire_instr_took (w := .updatePwm) hready (by decide)
  refine ⟨t, hexec, fun j hj => ?_, ?_, ?_⟩
  · rw [h2.loads rfl, h1.loads rfl]
    exact getElem?_bankValues_halves _ _ hj
  · rw [h2.outReg, h1.outReg]
    exact (frameBits_eq_halves ..).symm
  · simp [h2.correction, h1.correction, h2.phaseShift, h1.phaseShift, h2.pwm, h1.pwm, h2.corr, h1.corr]

/-- Settles O45: both chips take each of the three frames. -/
theorem modeCommandsActAtBothChips : Obligations.ModeCommandsActAtBothChips := by
  intro s hready
  refine ⟨?_, ?_, ?_⟩
  · obtain ⟨t, hexec, -, h2, h1⟩ := exec_wire_instr_took (w := .toggleCorrection) hready (by decide)
    refine ⟨t, hexec, ?_⟩
    simp [h2.correction, h1.correction, h2.phaseShift, h1.phaseShift, h2.pwm, h1.pwm, h2.corr, h1.corr]
  · obtain ⟨t, hexec, -, h2, h1⟩ := exec_wire_instr_took (w := .togglePhaseShift) hready (by decide)
    refine ⟨t, hexec, ?_⟩
    simp [h2.correction, h1.correction, h2.phaseShift, h1.phaseShift, h2.pwm, h1.pwm, h2.corr, h1.corr]
  · obtain ⟨t, hexec, -, h2, h1⟩ := exec_wire_instr_took (w := .enablePwm) hready (by decide)
    refine ⟨t, hexec, ?_⟩
    simp [h2.correction, h1.correction, h2.phaseShift, h1.phaseShift, h2.pwm, h1.pwm, h2.corr, h1.corr]

/-- Settles O46: both chips take an update-correction frame. -/
theorem updateCorrectionReachesEveryChannel : Obligations.UpdateCorrectionReachesEveryChannel := by
  intro s hready
  obtain ⟨t, hexec, -, h2, h1⟩ := exec_wire_instr_took (w := .updateCorrection) hready (by decide)
  refine ⟨t, hexec, fun j hj => ?_, h2.keeps rfl, h1.keeps rfl, ?_⟩
  · rw [h2.corr, h1.corr, if_pos rfl, if_pos rfl]
    exact getElem?_bankValues_halves _ _ hj
  · simp [h2.correction, h1.correction, h2.phaseShift, h1.phaseShift, h2.pwm, h1.pwm]

/-- Settles O47: each of the two frames inverts both chips' correction. -/
theorem twoTogglesRestoreCorrection : Obligations.TwoTogglesRestoreCorrection := by
  intro s hready
  obtain ⟨t, hfirst, hready', h2, h1⟩ := exec_wire_instr_took (w := .toggleCorrection) hready (by decide)
  obtain ⟨u, hsecond, -, h2', h1'⟩ := exec_wire_instr_took (w := .toggleCorrection) hready' (by decide)
  refine ⟨t, u, hfirst, hsecond, ?_, ?_⟩
  · simp [h1'.correction, h1.correction]
  · simp [h2'.correction, h2.correction]

end Sys2Proof.Proofs
end

section
/-! The DeviceController (spec/44_controller.md R130 to R136): `initialize` as the state and the events it leaves, and
one equation for each way that `setAnodeVoltage` and `commitFrame` complete. -/

namespace Sys2Proof.Machine

variable {s : State}

/-! ### `initialize` -/

/-- A blank frame sends 0 on every channel (R111, R130). -/
theorem channelValue_blank (c : Config) (n : Nat) : channelValue c (List.replicate n 0#12) = fun _ => 0 := by
  funext ch
  cases hsym : symbolForChannel c ch with
  | none => exact channelValue_of_unconnected hsym
  | some i =>
    rw [channelValue_of_connected hsym, List.getD_eq_getElem?_getD]
    exact List.getElem?_getD_replicate_default_eq ..

section
variable (s : State)

@[simp] theorem State.blankAndProgram_anode : s.blankAndProgram.anode = s.cfg.pwmAnode := by
  simp [State.blankAndProgram, programUnit]
@[simp] theorem State.blankAndProgram_chipClk : s.blankAndProgram.chipClk = s.cfg.pwmChipClk := by
  simp [State.blankAndProgram, programUnit]
@[simp] theorem State.resetSequence_anode : s.resetSequence.anode = s.anode := by simp [State.resetSequence_eq]
@[simp] theorem State.resetSequence_chipClk : s.resetSequence.chipClk = s.chipClk := by
  simp [State.resetSequence_eq]
@[simp] theorem State.loadFromPersistent_anode : s.loadFromPersistent.2.anode = s.anode := rfl
@[simp] theorem State.loadFromPersistent_chipClk : s.loadFromPersistent.2.chipClk = s.chipClk := rfl
@[simp] theorem State.loadFromPersistent_storeDraws :
    s.loadFromPersistent.2.storeDraws = s.storeDraws.tail := rfl

end

/-- A load fills every register, whether the read succeeds or fails (R103). -/
theorem State.length_loadFromPersistent_cal (s : State) : s.loadFromPersistent.2.cal.length = s.cfg.symbolCount := by
  rw [State.loadFromPersistent_cal, length_calLoaded]

/-- After a successful read a register whose byte is at most 63 holds it (R103). -/
theorem State.getElem?_loadFromPersistent_cal {i : Nat} (hok : s.storeOk = true) (hi : i < s.cfg.symbolCount)
    (hbyte : (Memory.read s.ps (s.cfg.calAddr + i)).toNat ≤ 63) :
    s.loadFromPersistent.2.cal[i]? = some ((Memory.read s.ps (s.cfg.calAddr + i)).setWidth 6) := by
  have hget : (Memory.readBytes s.ps s.cfg.calAddr s.cfg.symbolCount).getD i 0 =
      Memory.read s.ps (s.cfg.calAddr + i) := by simp [Memory.readBytes, hi]
  rw [State.loadFromPersistent_cal, if_pos hok, getElem?_calLoaded _ _ _ _ hi]
  simp only [hget, calFromByte, if_pos hbyte]

/-- The whole event list of `initialize`: the PWM units, the reset sequence over a blank frame, the read, and the loaded
calibration (R130, R131). -/
theorem out_of_hostInit {t : State} (h : exec .hostInit s = .next t) : t.out = s.out ++
    [.pwm .anode (.setup s.cfg.pwmAnode), .pwm .chipClk (.setup s.cfg.pwmChipClk), .level .latch true,
      .delay s.cfg.resetHoldMs, .level .latch false] ++
    transmission s.cfg s.cfg.cmdToggleCorrection (fun _ => 0) ++
    transmission s.cfg s.cfg.cmdTogglePhaseShift (fun _ => 0) ++
    transmission s.cfg s.cfg.cmdEnablePwm (fun _ => 0) ++
    [.nvRead s.cfg.calAddr s.cfg.symbolCount] ++
    transmission s.cfg s.cfg.cmdUpdateCorrection (channelValue s.cfg (t.cal.map expand)) := by
  rw [exec_hostInit, Host.Outcome.next.injEq] at h
  subst h
  simp [holdEvents, channelValue_blank, State.expandAll, Config.code]

/-! ### `setAnodeVoltage` and `commitFrame` -/

section
variable {v : Operand}

/-- `setAnodeVoltage` within the limit (R133). -/
theorem exec_setAnodeVoltage (hready : s.Ready) (hv : v.toNat ≤ s.cfg.maxVoltage) :
    exec (.setAnodeVoltage v) s =
      .next ((s.pwmProgram .anode (.duty (anodeDuty s.cfg v.toNat))).withResult .ok) := by
  show execSetAnodeVoltage v s = _
  rw [execSetAnodeVoltage, State.guarded_ready hready, voltsOperand_of_le hv]
  rfl

theorem exec_setAnodeVoltage_of_gt (hready : s.Ready) (hv : s.cfg.maxVoltage < v.toNat) :
    exec (.setAnodeVoltage v) s = .next (s.withResult (.err .outOfRange)) := by
  show execSetAnodeVoltage v s = _
  rw [execSetAnodeVoltage, State.guarded_ready hready, voltsOperand_of_gt hv]
  rfl

end

/-- `commitFrame` (R134). -/
theorem exec_commitFrame (hready : s.Ready) :
    exec .commitFrame s = .next ((s.transmit .updatePwm s.fb).withResult .ok) :=
  State.guarded_ready hready _

/-- A blank frame with one symbol set sends its value on the channels of that symbol and 0 on all others (R91, R111). -/
theorem channelValue_blank_set (c : Config) {n k : Nat} (hk : k < n) (x : Drive) :
    channelValue c ((List.replicate n 0).set k x) =
      fun ch => if symbolForChannel c ch = some k then x else 0 := by
  funext ch
  cases hsym : symbolForChannel c ch with
  | none => rw [channelValue_of_unconnected hsym, if_neg nofun]
  | some i =>
    rw [channelValue_of_connected hsym, List.getD_eq_getElem?_getD]
    by_cases hik : i = k
    · rw [hik, List.getElem?_set_self (by simpa using hk), if_pos rfl, Option.getD_some]
    · rw [List.getElem?_set_ne (Ne.symm hik), if_neg (hik ∘ Option.some.inj)]
      exact List.getElem?_getD_replicate_default_eq ..

end Sys2Proof.Machine

namespace Sys2Proof.Proofs

open Sys2Proof.Machine

/-- Settles O39, field by field: the state before the read, the read, and the update-correction frame. -/
theorem initializeEffect : Obligations.InitializeEffect := by
  intro s
  refine ⟨_, s.blankAndProgram.resetSequence.storeOk, exec_hostInit s, fun b rest hdraws => ?_, ?_, ?_,
    fun hok i hi hbyte => ?_⟩
  · exact State.storeOk_of_storeDraws (rest := rest) (by simpa using hdraws)
  · apply State.ext
    case out => exact out_of_hostInit (exec_hostInit s)
    all_goals simp [State.loadFromPersistent_fst, storeResult]
  · simpa using s.blankAndProgram.resetSequence.length_loadFromPersistent_cal
  · simpa using State.getElem?_loadFromPersistent_cal hok (by simpa using hi) (by simpa using hbyte)

/-- Settles O40: in the event list four transmissions of one length (R115) and six events besides. -/
theorem initializeEventCount : Obligations.InitializeEventCount := by
  intro s t h
  have hlen : t.out.length = s.out.length + 6 + 4 * (3 * (12 * s.cfg.channelCount + 16) + 3) := by
    simp only [out_of_hostInit h, List.length_append, length_transmission, List.length_cons, List.length_nil]
    omega
  exact ⟨hlen, fun h96 => by omega⟩

/-- Settles O37: the frame committed is the blank one with the one symbol set. -/
theorem blankSetOneCommitShowsOneSymbol : Obligations.BlankSetOneCommitShowsOneSymbol := by
  intro s k v hready hv hk
  refine ⟨_, _, _, exec_setAll hready (by decide), exec_setSymbol hready hv hk, exec_commitFrame hready, ?_⟩
  rw [← channelValue_blank_set s.cfg hk]
  rfl

/-- Settles O8: the acceptance rule stands first in each of the seven. -/
theorem operationsBeforeInitializeRefused : Obligations.OperationsBeforeInitializeRefused := fun _ h =>
  ⟨fun _ => State.guarded_not_ready h _, fun _ => State.guarded_not_ready h _, fun _ _ => State.guarded_not_ready h _,
    fun _ _ _ => State.guarded_not_ready h _, State.guarded_not_ready h _, fun _ _ => State.guarded_not_ready h _,
    fun _ => State.guarded_not_ready h _⟩

/-- Settles O36: `commitFrame` is one transmission and its result. -/
theorem commitFrameSendsTheSnapshot : Obligations.CommitFrameSendsTheSnapshot := by
  intro s hready
  refine ⟨_, exec_commitFrame hready, ?_⟩
  rw [State.transmit_eq]
  rfl

/-- Settles O38, one equation of `setAnodeVoltage` for each clause. -/
theorem setAnodeVoltageEffect : Obligations.SetAnodeVoltageEffect :=
  fun _ _ hready => ⟨exec_setAnodeVoltage hready, exec_setAnodeVoltage_of_gt hready⟩

/-- Settles O41: the hold or one transmission, then the register writes of the transition. -/
theorem initStateMachineTransitions : Obligations.InitStateMachineTransitions := fun s =>
  ⟨⟨rfl, (s.setInitState .unreset).resetHold_out⟩, ⟨rfl, rfl, s.transmit_out .toggleCorrection s.fb⟩,
    ⟨rfl, s.transmit_out .togglePhaseShift s.fb⟩, ⟨rfl, s.transmit_out .enablePwm s.fb⟩, rfl⟩

end Sys2Proof.Proofs
end

section
/-! Errors (spec/60_exceptions.md R150 to R155): the ways in which an instruction returns one, said once. A validation
error is the whole effect of its instruction; a store failure is reported after everything else was done. -/

namespace Sys2Proof.Machine

variable {i : Instr} {k : ErrorKind} {s t : State}

/-- What an instruction that returns the error `k` in state `s` has done: one constructor for each way to fail. -/
inductive Failure (s : State) : Instr → ErrorKind → State → Prop
  /-- An error of the operand checks, or a reserved selector (R73a, R155): the result and nothing else. -/
  | rejected {i : Instr} {k : ErrorKind} (hk : k ≠ .persistenceFailure)
      (hdigits : k = .unsupportedProduct → s.cfg.digitCount = 0 ∧ ∃ ch d v, i = .renderDigit ch d v) :
      Failure s i k (s.withResult (.err k))
  /-- `hostInit` whose read failed (R154, D26). -/
  | read (hread : s.blankAndProgram.resetSequence.storeOk = false) :
      Failure s .hostInit .persistenceFailure
        (State.sendCorrection s.blankAndProgram.resetSequence.loadFromPersistent)
  /-- A persisting `setCalibration` whose write failed (R154, D11). -/
  | write {values : List Byte} (hwrite : s.storeOk = false) :
      Failure s (.setCalibration true values) .persistenceFailure
        (State.sendCorrection ((s.setCal (calEntries values)).persistCal true))

/-- The only error of a store access (R154). -/
theorem storeResult_eq_err {ok : Bool} : storeResult ok = .err k ↔ ok = false ∧ k = .persistenceFailure := by
  cases ok <;> simp [storeResult, eq_comm]

/-- The result of the common end of `hostInit` and of `setCalibration` is that of the store access (R154). -/
theorem State.sendCorrection_results_eq_err {r : Bool × State} (hsame : r.2.results = s.results)
    (h : (State.sendCorrection r).results = s.results ++ [.err k]) : r.1 = false ∧ k = .persistenceFailure := by
  simpa [hsame, storeResult_eq_err] using h

/-- An answer whose result is an error is a failure. -/
theorem Answer.failure (h : Answer s i t) (hres : t.results = s.results ++ [.err k]) : Failure s i k t := by
  cases h with
  | boot =>
    obtain ⟨hread, rfl⟩ := State.sendCorrection_results_eq_err (by simp) hres
    exact .read (by rwa [State.loadFromPersistent_fst] at hread)
  | rejected hi hk hdigits =>
    obtain rfl : _ = k := by simpa using hres
    exact .rejected hk hdigits
  | @calibrate persist values hready hlen hval =>
    obtain ⟨hwrite, rfl⟩ := State.sendCorrection_results_eq_err (by simp) hres
    cases persist with
    | false => cases hwrite
    | true => exact .write hwrite
  | voltage | frame | commit | agreed | toggled | bare => simp at hres

/-- The common end of `hostInit` and of `setCalibration` sends the calibration registers as it leaves them, whether the
store access succeeded or not (R55, R154). -/
theorem State.sendCorrection_out_suffix {r : Bool × State} (hcfg : r.2.cfg = s.cfg) :
    ∃ evs, (State.sendCorrection r).out = evs ++ transmission s.cfg s.cfg.cmdUpdateCorrection
      (channelValue s.cfg ((State.sendCorrection r).cal.map expand)) := by
  rw [← hcfg]
  exact ⟨r.2.out, rfl⟩

end Sys2Proof.Machine

namespace Sys2Proof.Proofs

open Sys2Proof.Machine

/-- Settles O49: a failure of one of the three kinds is a rejection. -/
theorem validationErrorsChangeNothing : Obligations.ValidationErrorsChangeNothing := by
  intro i s t k h hres hk
  cases (exec_answer h).failure hres with
  | rejected => rfl
  | read | write => simp at hk

/-- Settles O50: the first check of `renderDigit`, and the only rejection of this kind. -/
theorem unsupportedProductOnlyWithoutDigits : Obligations.UnsupportedProductOnlyWithoutDigits := by
  refine ⟨fun _ _ _ _ => exec_renderDigit_of_digitCount_eq_zero, fun i s t h hres => ?_⟩
  cases (exec_answer h).failure hres with
  | rejected _ hdigits => exact hdigits rfl

/-- Settles O51: no rejection is of this kind, and both store failures end with the update-correction frame. -/
theorem persistenceFailureDoesNotAbort : Obligations.PersistenceFailureDoesNotAbort := by
  intro i s t h hres
  cases (exec_answer h).failure hres with
  | rejected hk => exact absurd rfl hk
  | read hread =>
    refine ⟨.inl ⟨rfl, hread, fun b rest hdraws => ?_⟩, State.sendCorrection_out_suffix (by simp)⟩
    rw [← hread]
    exact (State.storeOk_of_storeDraws (rest := rest) (by simpa using hdraws)).symm
  | @write values hwrite =>
    exact ⟨.inr ⟨values, rfl, hwrite, by simp⟩, State.sendCorrection_out_suffix (by simp)⟩

end Sys2Proof.Proofs
end

section
/-! Before and after the first `initialize` (spec/70_reset_and_hazards.md R170, R171, R173, R186): the idle step, the
refusal of the bare wire commands, and the chips that a first `initialize` leaves dark, with their modes set and their
correction values loaded. -/

namespace Sys2Proof.Machine

theorem step_of_idle {s : State} (h : s.requests = []) : step s = .next s := by
  simp only [step, h]

/-- Outside a ready state every bare command that a ready state sends is refused (R136, entry 11). -/
theorem exec_wire_instr_of_not_ready {s : State} {w : WireCommand} (hready : ¬ s.Ready) (hw : w ≠ .disablePwm) :
    exec w.instr s = .refused .notInitialized := by
  cases w with
  | disablePwm => exact absurd rfl hw
  | updatePwm | enablePwm | toggleCorrection | updateCorrection | togglePhaseShift =>
    exact State.guarded_not_ready hready _

/-! ### Dark chips -/

variable {c : Config} {chip : Chip} {chips : Chips} {w : WireCommand} {correction phaseShift pwm : Bool}

/-- A chip whose duties are all 0, with its three modes (R30d to R30g). -/
structure Chip.DarkWith (c : Config) (correction phaseShift pwm : Bool) (chip : Chip) : Prop where
  correction : chip.correction = correction
  phaseShift : chip.phaseShift = phaseShift
  pwm : chip.pwm = pwm
  duty : chip.duty = List.replicate c.bank 0

/-- Both chips are dark, with the same modes. -/
structure Chips.DarkWith (c : Config) (correction phaseShift pwm : Bool) (chips : Chips) : Prop where
  chip1 : chips.chip1.DarkWith c correction phaseShift pwm
  chip2 : chips.chip2.DarkWith c correction phaseShift pwm

/-- Chips power up dark, in the modes of R36 and entry 17. -/
theorem Chips.darkWith_powerUp (c : Config) : (Chips.powerUp c).DarkWith c true false false :=
  ⟨⟨rfl, rfl, rfl, rfl⟩, ⟨rfl, rfl, rfl, rfl⟩⟩

/-- The hold leaves the duties of a chip alone, and in its power-up state the modes too (R30c, entry 19). -/
theorem Chip.DarkWith.hold (h : chip.DarkWith c correction phaseShift pwm) (d : Nat) :
    (chip.hold c true d).DarkWith c correction phaseShift pwm :=
  ⟨h.correction, h.phaseShift, h.pwm, h.duty⟩

theorem Chips.DarkWith.hold (h : chips.DarkWith c correction phaseShift pwm) (hfresh : chips.fresh = true) (d : Nat) :
    (chips.hold c d).DarkWith c correction phaseShift pwm := by
  rw [Chips.hold, hfresh]
  exact ⟨h.chip1.hold _, h.chip2.hold _⟩

/-- Whatever its command, a frame gives a chip the duties of its data slots or leaves those it had (R119, entry 18). -/
theorem Chip.takeFrame_duty (c : Config) (d : Nat) (bits : List Bool) (chip : Chip) :
    (chip.takeFrame c d bits).duty = bankValues c bits ∨ (chip.takeFrame c d bits).duty = chip.duty := by
  have hkeep : Chip.loadOrKeep c d { chip with shift := bits, outReg := bits } = bankValues c bits ∨
      Chip.loadOrKeep c d { chip with shift := bits, outReg := bits } = chip.duty := ite_eq_or_eq ..
  rw [Chip.takeFrame, Chip.act]
  split
  · exact .inl rfl
  · exact .inr rfl
  all_goals exact hkeep

/-- A frame that is sent moves the modes by its command, and leaves the chip dark if its data slots are 0 or are
correction values (R119 to R122, R124). -/
theorem Chip.DarkWith.takeFrame (h : chip.DarkWith c correction phaseShift pwm) (hw : w ≠ .disablePwm)
    {bits : List Bool} (hcmd : bankCommand c bits = c.code w)
    (hbits : w ≠ .updateCorrection → bankValues c bits = List.replicate c.bank 0) (d : Nat) :
    (chip.takeFrame c d bits).DarkWith c (correction ^^ decide (w = .toggleCorrection))
      (phaseShift ^^ decide (w = .togglePhaseShift)) (pwm || decide (w = .enablePwm)) := by
  have htook := Chip.took_takeFrame hw hcmd d chip
  refine ⟨by rw [htook.correction, h.correction], by rw [htook.phaseShift, h.phaseShift],
    by rw [htook.pwm, h.pwm], ?_⟩
  by_cases hupdate : w = .updateCorrection
  · rw [htook.keeps hupdate, h.duty]
  · obtain hload | hkeep := Chip.takeFrame_duty c d bits chip
    · rw [hload, hbits hupdate]
    · rw [hkeep, h.duty]

/-! ### One frame at both chips -/

/-- A transmission gives each chip its half of the frame (R61, R66). -/
theorem Chips.receive_eq_halves (c : Config) (d : Nat) (level : Bool) (cmd : Byte) (value : Nat → Drive)
    (chips : Chips) :
    chips.receive c d level (transmission c cmd value) =
      { chip2 := chips.chip2.takeFrame c d (halfFrame c cmd value c.channelCount)
        chip1 := chips.chip1.takeFrame c (d + Chip.drawsPerLatch) (halfFrame c cmd value c.bank)
        fresh := false } := by
  obtain ⟨hfirst, hsecond⟩ := frameBits_halves c cmd value
  rw [Chips.receive_eq_takeFrame, hfirst, hsecond]
  rfl

/-- The command in a half frame (R66). -/
theorem bankCommand_halfFrame (c : Config) (cmd : Byte) (value : Nat → Drive) (top : Nat) :
    bankCommand c (halfFrame c cmd value top) = cmd := by
  have h := fieldAt_append cmd ((channelsDown top c.bank).flatMap fun ch => msbFirst (value ch)) []
  rwa [List.append_nil, length_bank] at h

/-- A half frame whose channels are all 0 (R66). -/
theorem bankValues_halfFrame_zero (c : Config) (cmd : Byte) {top : Nat} (htop : c.bank ≤ top) :
    bankValues c (halfFrame c cmd (fun _ => 0) top) = List.replicate c.bank 0 := by
  have hlen : (bankValues c (halfFrame c cmd (fun _ => 0) top)).length = c.bank := by simp [bankValues]
  refine List.eq_replicate_iff.mpr ⟨hlen, fun v hv => ?_⟩
  obtain ⟨j, hj, rfl⟩ := List.mem_iff_getElem.mp hv
  have hget := getElem?_bankValues_halfFrame c cmd (fun _ => 0) htop (hlen ▸ hj)
  rwa [List.getElem?_eq_getElem hj, Option.some.injEq] at hget

/-- A frame that is sent leaves both chips dark if its data slots are 0 or are correction values. -/
theorem Chips.DarkWith.receive (h : chips.DarkWith c correction phaseShift pwm) (hw : w ≠ .disablePwm)
    {value : Nat → Drive} (hvalue : w ≠ .updateCorrection → value = fun _ => 0) (d : Nat) (level : Bool) :
    (chips.receive c d level (transmission c (c.code w) value)).DarkWith c
      (correction ^^ decide (w = .toggleCorrection)) (phaseShift ^^ decide (w = .togglePhaseShift))
      (pwm || decide (w = .enablePwm)) := by
  have hbits {top : Nat} (htop : c.bank ≤ top) (hne : w ≠ .updateCorrection) :
      bankValues c (halfFrame c (c.code w) value top) = List.replicate c.bank 0 := by
    rw [hvalue hne, bankValues_halfFrame_zero c _ htop]
  have hbank : c.bank ≤ c.channelCount := by
    have := two_mul_bank c
    omega
  rw [Chips.receive_eq_halves]
  exact ⟨h.chip1.takeFrame hw (bankCommand_halfFrame ..) (hbits le_rfl) _,
    h.chip2.takeFrame hw (bankCommand_halfFrame ..) (hbits hbank) _⟩

/-- After an update-correction frame each chip holds the correction values of its channels (R30h, R121). -/
theorem Chips.getElem?_corr_receive (c : Config) (d : Nat) (level : Bool) (value : Nat → Drive) (chips : Chips) {j : Nat}
    (hj : j < c.bank) :
    (chips.receive c d level (transmission c (c.code .updateCorrection) value)).chip2.corr[j]? =
        some (value (c.bank + j)) ∧
      (chips.receive c d level (transmission c (c.code .updateCorrection) value)).chip1.corr[j]? =
        some (value j) := by
  have hcorr (d : Nat) (top : Nat) (chip : Chip) :
      (chip.takeFrame c d (halfFrame c (c.code .updateCorrection) value top)).corr =
        bankValues c (halfFrame c (c.code .updateCorrection) value top) :=
    (Chip.took_takeFrame (by decide) (bankCommand_halfFrame ..) d chip).corr
  rw [Chips.receive_eq_halves, hcorr, hcorr]
  exact getElem?_bankValues_halves _ value hj

/-! ### The first `initialize` -/

/-- The reset sequence over a blank frame buffer, at chips just powered up: dark, with correction off, phase shift on and
PWM enabled (R131, R171). -/
theorem Chips.darkWith_resetSequence {s : State} (hchips : s.chips = Chips.powerUp s.cfg)
    (hblank : channelValue s.cfg s.fb = fun _ => 0) : s.resetSequence.chips.DarkWith s.cfg false true true := by
  simp only [State.resetSequence_eq, State.setInitState_chips, State.setInitState_cfg, State.setCalEn_chips,
    State.setCalEn_cfg, State.transmit_chips, State.transmit_cfg, State.resetHold_chips, State.resetHold_cfg, hchips]
  have hhold := (Chips.darkWith_powerUp s.cfg).hold rfl (s.setInitState .unreset).draws
  exact ((hhold.receive (w := .toggleCorrection) (by decide) (fun _ => hblank) _ _).receive (w := .togglePhaseShift)
    (by decide) (fun _ => hblank) _ _).receive (w := .enablePwm) (by decide) (fun _ => hblank) _ _

/-- The last frame of `initialize` leaves alone the modes and the duties that the reset sequence set (R121, entry 20). -/
theorem Chips.darkWith_hostInit {s : State} (hchips : s.chips = Chips.powerUp s.cfg) :
    (State.sendCorrection s.blankAndProgram.resetSequence.loadFromPersistent).chips.DarkWith s.cfg false true true := by
  have hreset := Chips.darkWith_resetSequence (s := s.blankAndProgram) (by simpa using hchips)
    (by simp [channelValue_blank])
  rw [State.blankAndProgram_cfg] at hreset
  simpa using hreset.receive (w := .updateCorrection) (by decide) (absurd rfl) _ _

end Sys2Proof.Machine

namespace Sys2Proof.Proofs

open Sys2Proof.Machine

/-- Settles O48: the reset sequence leaves dark chips in the modes of R171, and the last frame loads the correction
values. -/
theorem chipsAfterFirstInitialize : Obligations.ChipsAfterFirstInitialize := by
  intro c ps
  obtain ⟨h1, h2⟩ := Chips.darkWith_hostInit (s := State.powerOn c ps) rfl
  exact ⟨_, exec_hostInit _, ⟨h1.correction, h2.correction⟩, ⟨h1.phaseShift, h2.phaseShift⟩, ⟨h1.pwm, h2.pwm⟩,
    ⟨h1.duty, h2.duty⟩, fun _ hj => Chips.getElem?_corr_receive c _ _ _ _ hj⟩

/-- Settles O7. -/
theorem idleStepChangesNothing : Obligations.IdleStepChangesNothing := fun _ => step_of_idle

/-- Settles O60, one bare command for each clause. -/
theorem wireCommandsBeforeInitializeRefused : Obligations.WireCommandsBeforeInitializeRefused := fun _ h =>
  ⟨exec_wire_instr_of_not_ready (w := .updatePwm) h (by decide),
    exec_wire_instr_of_not_ready (w := .toggleCorrection) h (by decide),
    exec_wire_instr_of_not_ready (w := .updateCorrection) h (by decide),
    exec_wire_instr_of_not_ready (w := .enablePwm) h (by decide),
    exec_wire_instr_of_not_ready (w := .togglePhaseShift) h (by decide)⟩

end Sys2Proof.Proofs
end
